-- ==== Sys2Proof/Syntax.lean ====
section
/-! DEFINITION. The commands of the ISQRT CORE as data (30_encoding.md), and the host's operations on the register
window (20_memory.md R54, 30_encoding.md R91). -/

namespace Sys2Proof

/-- The operand widths (R2). -/
inductive Width where
  | w8 | w16 | w32 | w64 | w128
  deriving DecidableEq, Repr

/-- The engines (R6, R82). -/
inductive Engine where
  | bin | fp | kar
  deriving DecidableEq, Repr

/-- The operations (R83). -/
inductive Op where
  | isqrtU | isqrtremU | chksqrtI | isqrtI
  deriving DecidableEq, Repr

/-- The fields of a command word before any check (R80). -/
structure CmdFields where
  wid : BitVec 4
  eng : BitVec 4
  op  : BitVec 4
  rsv : BitVec 20
  deriving DecidableEq, Repr

/-- What a command names: its operation, width and engine (R94). -/
structure Shape where
  op     : Op
  width  : Width
  engine : Engine
  deriving DecidableEq, Repr

/-- The 50 commands, one constructor per row of the opcode table (R89). A command has no operand of its own: its one
operand is the latched one (R87). -/
inductive Instr where
  | isqrtU8Bin
  | isqrtU16Bin
  | isqrtU32Bin
  | isqrtU64Bin
  | isqrtU128Bin
  | isqrtU8Fp
  | isqrtU16Fp
  | isqrtU32Fp
  | isqrtU64Fp
  | isqrtU128Fp
  | isqrtU8Kar
  | isqrtU16Kar
  | isqrtU32Kar
  | isqrtU64Kar
  | isqrtU128Kar
  | isqrtremU8Kar
  | isqrtremU16Kar
  | isqrtremU32Kar
  | isqrtremU64Kar
  | isqrtremU128Kar
  | chksqrtI8Bin
  | chksqrtI16Bin
  | chksqrtI32Bin
  | chksqrtI64Bin
  | chksqrtI128Bin
  | chksqrtI8Fp
  | chksqrtI16Fp
  | chksqrtI32Fp
  | chksqrtI64Fp
  | chksqrtI128Fp
  | chksqrtI8Kar
  | chksqrtI16Kar
  | chksqrtI32Kar
  | chksqrtI64Kar
  | chksqrtI128Kar
  | isqrtI8Bin
  | isqrtI16Bin
  | isqrtI32Bin
  | isqrtI64Bin
  | isqrtI128Bin
  | isqrtI8Fp
  | isqrtI16Fp
  | isqrtI32Fp
  | isqrtI64Fp
  | isqrtI128Fp
  | isqrtI8Kar
  | isqrtI16Kar
  | isqrtI32Kar
  | isqrtI64Kar
  | isqrtI128Kar
  deriving DecidableEq, Repr

/-- The operation, width and engine columns of the opcode map (R89). -/
def Instr.shape : Instr → Shape
  | .isqrtU8Bin => ⟨.isqrtU, .w8, .bin⟩
  | .isqrtU16Bin => ⟨.isqrtU, .w16, .bin⟩
  | .isqrtU32Bin => ⟨.isqrtU, .w32, .bin⟩
  | .isqrtU64Bin => ⟨.isqrtU, .w64, .bin⟩
  | .isqrtU128Bin => ⟨.isqrtU, .w128, .bin⟩
  | .isqrtU8Fp => ⟨.isqrtU, .w8, .fp⟩
  | .isqrtU16Fp => ⟨.isqrtU, .w16, .fp⟩
  | .isqrtU32Fp => ⟨.isqrtU, .w32, .fp⟩
  | .isqrtU64Fp => ⟨.isqrtU, .w64, .fp⟩
  | .isqrtU128Fp => ⟨.isqrtU, .w128, .fp⟩
  | .isqrtU8Kar => ⟨.isqrtU, .w8, .kar⟩
  | .isqrtU16Kar => ⟨.isqrtU, .w16, .kar⟩
  | .isqrtU32Kar => ⟨.isqrtU, .w32, .kar⟩
  | .isqrtU64Kar => ⟨.isqrtU, .w64, .kar⟩
  | .isqrtU128Kar => ⟨.isqrtU, .w128, .kar⟩
  | .isqrtremU8Kar => ⟨.isqrtremU, .w8, .kar⟩
  | .isqrtremU16Kar => ⟨.isqrtremU, .w16, .kar⟩
  | .isqrtremU32Kar => ⟨.isqrtremU, .w32, .kar⟩
  | .isqrtremU64Kar => ⟨.isqrtremU, .w64, .kar⟩
  | .isqrtremU128Kar => ⟨.isqrtremU, .w128, .kar⟩
  | .chksqrtI8Bin => ⟨.chksqrtI, .w8, .bin⟩
  | .chksqrtI16Bin => ⟨.chksqrtI, .w16, .bin⟩
  | .chksqrtI32Bin => ⟨.chksqrtI, .w32, .bin⟩
  | .chksqrtI64Bin => ⟨.chksqrtI, .w64, .bin⟩
  | .chksqrtI128Bin => ⟨.chksqrtI, .w128, .bin⟩
  | .chksqrtI8Fp => ⟨.chksqrtI, .w8, .fp⟩
  | .chksqrtI16Fp => ⟨.chksqrtI, .w16, .fp⟩
  | .chksqrtI32Fp => ⟨.chksqrtI, .w32, .fp⟩
  | .chksqrtI64Fp => ⟨.chksqrtI, .w64, .fp⟩
  | .chksqrtI128Fp => ⟨.chksqrtI, .w128, .fp⟩
  | .chksqrtI8Kar => ⟨.chksqrtI, .w8, .kar⟩
  | .chksqrtI16Kar => ⟨.chksqrtI, .w16, .kar⟩
  | .chksqrtI32Kar => ⟨.chksqrtI, .w32, .kar⟩
  | .chksqrtI64Kar => ⟨.chksqrtI, .w64, .kar⟩
  | .chksqrtI128Kar => ⟨.chksqrtI, .w128, .kar⟩
  | .isqrtI8Bin => ⟨.isqrtI, .w8, .bin⟩
  | .isqrtI16Bin => ⟨.isqrtI, .w16, .bin⟩
  | .isqrtI32Bin => ⟨.isqrtI, .w32, .bin⟩
  | .isqrtI64Bin => ⟨.isqrtI, .w64, .bin⟩
  | .isqrtI128Bin => ⟨.isqrtI, .w128, .bin⟩
  | .isqrtI8Fp => ⟨.isqrtI, .w8, .fp⟩
  | .isqrtI16Fp => ⟨.isqrtI, .w16, .fp⟩
  | .isqrtI32Fp => ⟨.isqrtI, .w32, .fp⟩
  | .isqrtI64Fp => ⟨.isqrtI, .w64, .fp⟩
  | .isqrtI128Fp => ⟨.isqrtI, .w128, .fp⟩
  | .isqrtI8Kar => ⟨.isqrtI, .w8, .kar⟩
  | .isqrtI16Kar => ⟨.isqrtI, .w16, .kar⟩
  | .isqrtI32Kar => ⟨.isqrtI, .w32, .kar⟩
  | .isqrtI64Kar => ⟨.isqrtI, .w64, .kar⟩
  | .isqrtI128Kar => ⟨.isqrtI, .w128, .kar⟩

/-- A host access at the unit's port: an offset from BASE (negative below it), the number of bytes it moves, and for a write
its word. Every offset and size can be written down; only some are admitted (R54). -/
inductive HostAccess where
  | read (off : Int) (size : Nat)
  | write (off : Int) (size : Nat) (v : BitVec 32)
  deriving DecidableEq, Repr

/-- What the host still has to do: one access (sw, lw); the poll loop wait, which reads STATUS until BUSY = 0 (R91); or a poll
loop of the host's own, which reads one word until its bits under a mask are the wanted ones and so need not end (R291; log
entry 16). -/
inductive HostOp where
  | access (a : HostAccess)
  | wait
  | poll (off : Int) (mask want : BitVec 32)
  deriving DecidableEq, Repr

end Sys2Proof
end

