-- ==== Sys2Proof/WellFormed.lean ====
section
/-! DEFINITION. Which command fields are legal (30_encoding.md R84), which command shapes exist (00_scope.md R6), and
which host accesses are admitted (20_memory.md R54). -/

namespace Sys2Proof

/-- `Legal` of R84, on the fields of a command word. -/
def CmdFields.legal (f : CmdFields) : Bool :=
  f.rsv == 0#20 && f.wid.toNat ≤ 4 && f.eng.toNat ≤ 2 && f.op.toNat ≤ 3
    && !(f.op.toNat == 1 && f.eng.toNat != 2)

/-- ISQRTREM exists only for the KAR engine (R6); every other shape exists. -/
def Shape.wf (s : Shape) : Bool :=
  s.op != .isqrtremU || s.engine == .kar

/-- A command is well formed when the unit has a command of its shape (R6). -/
def Instr.wf (i : Instr) : Bool := i.shape.wf

/-- The offset of an access. -/
def HostAccess.offset : HostAccess → Int
  | .read off _ => off
  | .write off _ _ => off

/-- How many bytes an access moves. -/
def HostAccess.size : HostAccess → Nat
  | .read _ size => size
  | .write _ size _ => size

/-- Admitted accesses (R54): exactly 4 bytes, at an offset that is a multiple of 4, inside the 256-byte window at both
its ends (R54; 93_implementation_defined.md section 2, 'misaligned or out-of-window accesses'). -/
def HostAccess.admitted (a : HostAccess) : Bool :=
  a.size == 4 && a.offset % 4 == 0 && 0 ≤ a.offset && a.offset + a.size ≤ 256

/-- A host operation is well formed when its accesses are admitted; the poll loop reads STATUS at 0x34. -/
def HostOp.wf : HostOp → Bool
  | .access a => a.admitted
  | .wait => true
  | .poll off _ _ => (HostAccess.read off 4).admitted

end Sys2Proof
end

