-- ==== Sys2Proof/Word.lean ====
section
/-! DEFINITION. The word types of the ISQRT CORE (00_scope.md rule R4). -/

namespace Sys2Proof

/-- A byte of a bus word, or an entry half of the base-case table (R52, R66). -/
abbrev Byte := BitVec 8

/-- The one bus access size, and the command word (R4, R54). -/
abbrev Word32 := BitVec 32

/-- The data registers OPND, ROOT, REM and the latched operand (R4, R22). -/
abbrev Reg128 := BitVec 128

end Sys2Proof
end

