-- ==== Sys2Proof/Decode.lean ====
section
/-! DEFINITION. Decoding of command words by their fields (30_encoding.md R80-R84, R94), the encoder from the opcode
map (R89), and the mnemonics (R90). -/

namespace Sys2Proof

/-- Why a command word is illegal (R84, R85), or why no command word could be read. -/
inductive DecodeError where
  /-- Fewer than the four bytes of a command word (R88). -/
  | truncated
  /-- RSV is not 0. -/
  | nonzeroRsv
  /-- WID is 5 to 15. -/
  | reservedWid
  /-- ENG is 3 to 15. -/
  | reservedEng
  /-- OP is 4 to 15. -/
  | reservedOp
  /-- ISQRTREM with an engine other than KAR. -/
  | remNeedsKar
  deriving DecidableEq, Repr

/-- The answer of Decode: a command, or Illegal with its reason (R94). -/
inductive DecodeResult where
  | ok (i : Instr)
  | illegal (why : DecodeError)
  deriving DecidableEq, Repr

/-- The fields of a command word (R80): WID 3:0, ENG 7:4, OP 11:8, RSV 31:12. -/
def fieldsOf (c : Word32) : CmdFields where
  wid := c.extractLsb' 0 4
  eng := c.extractLsb' 4 4
  op  := c.extractLsb' 8 4
  rsv := c.extractLsb' 12 20

/-- R81. -/
def widthOf (wid : BitVec 4) : Option Width :=
  match wid.toNat with
  | 0 => some .w8
  | 1 => some .w16
  | 2 => some .w32
  | 3 => some .w64
  | 4 => some .w128
  | _ => none

/-- R82. -/
def engineOf (eng : BitVec 4) : Option Engine :=
  match eng.toNat with
  | 0 => some .bin
  | 1 => some .fp
  | 2 => some .kar
  | _ => none

/-- R83. -/
def opOf (op : BitVec 4) : Option Op :=
  match op.toNat with
  | 0 => some .isqrtU
  | 1 => some .isqrtremU
  | 2 => some .chksqrtI
  | 3 => some .isqrtI
  | _ => none

/-- The number of bits of a width (R81). -/
def Width.bits : Width → Nat
  | .w8 => 8
  | .w16 => 16
  | .w32 => 32
  | .w64 => 64
  | .w128 => 128

/-- The command of an operation, engine and width; ISQRTREM exists only with KAR (R84, R89). -/
def instrOf : Op → Engine → Width → Option Instr
  | .isqrtU, .bin, .w8 => some .isqrtU8Bin
  | .isqrtU, .bin, .w16 => some .isqrtU16Bin
  | .isqrtU, .bin, .w32 => some .isqrtU32Bin
  | .isqrtU, .bin, .w64 => some .isqrtU64Bin
  | .isqrtU, .bin, .w128 => some .isqrtU128Bin
  | .isqrtU, .fp, .w8 => some .isqrtU8Fp
  | .isqrtU, .fp, .w16 => some .isqrtU16Fp
  | .isqrtU, .fp, .w32 => some .isqrtU32Fp
  | .isqrtU, .fp, .w64 => some .isqrtU64Fp
  | .isqrtU, .fp, .w128 => some .isqrtU128Fp
  | .isqrtU, .kar, .w8 => some .isqrtU8Kar
  | .isqrtU, .kar, .w16 => some .isqrtU16Kar
  | .isqrtU, .kar, .w32 => some .isqrtU32Kar
  | .isqrtU, .kar, .w64 => some .isqrtU64Kar
  | .isqrtU, .kar, .w128 => some .isqrtU128Kar
  | .isqrtremU, .kar, .w8 => some .isqrtremU8Kar
  | .isqrtremU, .kar, .w16 => some .isqrtremU16Kar
  | .isqrtremU, .kar, .w32 => some .isqrtremU32Kar
  | .isqrtremU, .kar, .w64 => some .isqrtremU64Kar
  | .isqrtremU, .kar, .w128 => some .isqrtremU128Kar
  | .chksqrtI, .bin, .w8 => some .chksqrtI8Bin
  | .chksqrtI, .bin, .w16 => some .chksqrtI16Bin
  | .chksqrtI, .bin, .w32 => some .chksqrtI32Bin
  | .chksqrtI, .bin, .w64 => some .chksqrtI64Bin
  | .chksqrtI, .bin, .w128 => some .chksqrtI128Bin
  | .chksqrtI, .fp, .w8 => some .chksqrtI8Fp
  | .chksqrtI, .fp, .w16 => some .chksqrtI16Fp
  | .chksqrtI, .fp, .w32 => some .chksqrtI32Fp
  | .chksqrtI, .fp, .w64 => some .chksqrtI64Fp
  | .chksqrtI, .fp, .w128 => some .chksqrtI128Fp
  | .chksqrtI, .kar, .w8 => some .chksqrtI8Kar
  | .chksqrtI, .kar, .w16 => some .chksqrtI16Kar
  | .chksqrtI, .kar, .w32 => some .chksqrtI32Kar
  | .chksqrtI, .kar, .w64 => some .chksqrtI64Kar
  | .chksqrtI, .kar, .w128 => some .chksqrtI128Kar
  | .isqrtI, .bin, .w8 => some .isqrtI8Bin
  | .isqrtI, .bin, .w16 => some .isqrtI16Bin
  | .isqrtI, .bin, .w32 => some .isqrtI32Bin
  | .isqrtI, .bin, .w64 => some .isqrtI64Bin
  | .isqrtI, .bin, .w128 => some .isqrtI128Bin
  | .isqrtI, .fp, .w8 => some .isqrtI8Fp
  | .isqrtI, .fp, .w16 => some .isqrtI16Fp
  | .isqrtI, .fp, .w32 => some .isqrtI32Fp
  | .isqrtI, .fp, .w64 => some .isqrtI64Fp
  | .isqrtI, .fp, .w128 => some .isqrtI128Fp
  | .isqrtI, .kar, .w8 => some .isqrtI8Kar
  | .isqrtI, .kar, .w16 => some .isqrtI16Kar
  | .isqrtI, .kar, .w32 => some .isqrtI32Kar
  | .isqrtI, .kar, .w64 => some .isqrtI64Kar
  | .isqrtI, .kar, .w128 => some .isqrtI128Kar
  | .isqrtremU, .bin, _ => none
  | .isqrtremU, .fp, _ => none

/-- Decode (R94): total on every 32-bit word, each illegal word rejected by name. -/
def decode (c : Word32) : DecodeResult :=
  let f := fieldsOf c
  if f.rsv ≠ 0#20 then .illegal .nonzeroRsv
  else match widthOf f.wid with
    | none => .illegal .reservedWid
    | some w => match engineOf f.eng with
      | none => .illegal .reservedEng
      | some e => match opOf f.op with
        | none => .illegal .reservedOp
        | some o => match instrOf o e w with
          | none => .illegal .remNeedsKar
          | some i => .ok i

/-- The word of four bytes, lowest address first, in the bus's little-endian byte order (R52). -/
def wordOfBytes (b0 b1 b2 b3 : Byte) : Word32 := b3 ++ b2 ++ b1 ++ b0

/-- Decoding from bytes: a command is exactly one 32-bit word (R88); bytes after it are not looked at. -/
def decodeBytes : List Byte → DecodeResult
  | b0 :: b1 :: b2 :: b3 :: _ => decode (wordOfBytes b0 b1 b2 b3)
  | _ => .illegal .truncated

/-- The four bytes of a word, lowest address first (R52). -/
def bytesOfWord (c : Word32) : List Byte :=
  [c.extractLsb' 0 8, c.extractLsb' 8 8, c.extractLsb' 16 8, c.extractLsb' 24 8]

/-- The command word a table number stands for: its bits above nbits are 0. -/
def tableWord (nbits w : Nat) : Word32 := BitVec.ofNat 32 (w % 2 ^ nbits)

/-- What the decoder reads from a command word numbered as the opcode table numbers it. -/
def decodeTableWord (nbits w : Nat) : Option Instr :=
  match decodeBytes (bytesOfWord (tableWord nbits w)) with
  | .ok i => some i
  | .illegal _ => none

/-- The CMD word column of the opcode map (R89). -/
def encode : Instr → Word32
  | .isqrtU8Bin => 0x00000000#32
  | .isqrtU16Bin => 0x00000001#32
  | .isqrtU32Bin => 0x00000002#32
  | .isqrtU64Bin => 0x00000003#32
  | .isqrtU128Bin => 0x00000004#32
  | .isqrtU8Fp => 0x00000010#32
  | .isqrtU16Fp => 0x00000011#32
  | .isqrtU32Fp => 0x00000012#32
  | .isqrtU64Fp => 0x00000013#32
  | .isqrtU128Fp => 0x00000014#32
  | .isqrtU8Kar => 0x00000020#32
  | .isqrtU16Kar => 0x00000021#32
  | .isqrtU32Kar => 0x00000022#32
  | .isqrtU64Kar => 0x00000023#32
  | .isqrtU128Kar => 0x00000024#32
  | .isqrtremU8Kar => 0x00000120#32
  | .isqrtremU16Kar => 0x00000121#32
  | .isqrtremU32Kar => 0x00000122#32
  | .isqrtremU64Kar => 0x00000123#32
  | .isqrtremU128Kar => 0x00000124#32
  | .chksqrtI8Bin => 0x00000200#32
  | .chksqrtI16Bin => 0x00000201#32
  | .chksqrtI32Bin => 0x00000202#32
  | .chksqrtI64Bin => 0x00000203#32
  | .chksqrtI128Bin => 0x00000204#32
  | .chksqrtI8Fp => 0x00000210#32
  | .chksqrtI16Fp => 0x00000211#32
  | .chksqrtI32Fp => 0x00000212#32
  | .chksqrtI64Fp => 0x00000213#32
  | .chksqrtI128Fp => 0x00000214#32
  | .chksqrtI8Kar => 0x00000220#32
  | .chksqrtI16Kar => 0x00000221#32
  | .chksqrtI32Kar => 0x00000222#32
  | .chksqrtI64Kar => 0x00000223#32
  | .chksqrtI128Kar => 0x00000224#32
  | .isqrtI8Bin => 0x00000300#32
  | .isqrtI16Bin => 0x00000301#32
  | .isqrtI32Bin => 0x00000302#32
  | .isqrtI64Bin => 0x00000303#32
  | .isqrtI128Bin => 0x00000304#32
  | .isqrtI8Fp => 0x00000310#32
  | .isqrtI16Fp => 0x00000311#32
  | .isqrtI32Fp => 0x00000312#32
  | .isqrtI64Fp => 0x00000313#32
  | .isqrtI128Fp => 0x00000314#32
  | .isqrtI8Kar => 0x00000320#32
  | .isqrtI16Kar => 0x00000321#32
  | .isqrtI32Kar => 0x00000322#32
  | .isqrtI64Kar => 0x00000323#32
  | .isqrtI128Kar => 0x00000324#32

/-- The mnemonic column of the opcode map (R89, R90). -/
def Instr.mnemonic : Instr → String
  | .isqrtU8Bin => "ISQRT.U8.BIN"
  | .isqrtU16Bin => "ISQRT.U16.BIN"
  | .isqrtU32Bin => "ISQRT.U32.BIN"
  | .isqrtU64Bin => "ISQRT.U64.BIN"
  | .isqrtU128Bin => "ISQRT.U128.BIN"
  | .isqrtU8Fp => "ISQRT.U8.FP"
  | .isqrtU16Fp => "ISQRT.U16.FP"
  | .isqrtU32Fp => "ISQRT.U32.FP"
  | .isqrtU64Fp => "ISQRT.U64.FP"
  | .isqrtU128Fp => "ISQRT.U128.FP"
  | .isqrtU8Kar => "ISQRT.U8.KAR"
  | .isqrtU16Kar => "ISQRT.U16.KAR"
  | .isqrtU32Kar => "ISQRT.U32.KAR"
  | .isqrtU64Kar => "ISQRT.U64.KAR"
  | .isqrtU128Kar => "ISQRT.U128.KAR"
  | .isqrtremU8Kar => "ISQRTREM.U8.KAR"
  | .isqrtremU16Kar => "ISQRTREM.U16.KAR"
  | .isqrtremU32Kar => "ISQRTREM.U32.KAR"
  | .isqrtremU64Kar => "ISQRTREM.U64.KAR"
  | .isqrtremU128Kar => "ISQRTREM.U128.KAR"
  | .chksqrtI8Bin => "CHKSQRT.I8.BIN"
  | .chksqrtI16Bin => "CHKSQRT.I16.BIN"
  | .chksqrtI32Bin => "CHKSQRT.I32.BIN"
  | .chksqrtI64Bin => "CHKSQRT.I64.BIN"
  | .chksqrtI128Bin => "CHKSQRT.I128.BIN"
  | .chksqrtI8Fp => "CHKSQRT.I8.FP"
  | .chksqrtI16Fp => "CHKSQRT.I16.FP"
  | .chksqrtI32Fp => "CHKSQRT.I32.FP"
  | .chksqrtI64Fp => "CHKSQRT.I64.FP"
  | .chksqrtI128Fp => "CHKSQRT.I128.FP"
  | .chksqrtI8Kar => "CHKSQRT.I8.KAR"
  | .chksqrtI16Kar => "CHKSQRT.I16.KAR"
  | .chksqrtI32Kar => "CHKSQRT.I32.KAR"
  | .chksqrtI64Kar => "CHKSQRT.I64.KAR"
  | .chksqrtI128Kar => "CHKSQRT.I128.KAR"
  | .isqrtI8Bin => "ISQRT.I8.BIN"
  | .isqrtI16Bin => "ISQRT.I16.BIN"
  | .isqrtI32Bin => "ISQRT.I32.BIN"
  | .isqrtI64Bin => "ISQRT.I64.BIN"
  | .isqrtI128Bin => "ISQRT.I128.BIN"
  | .isqrtI8Fp => "ISQRT.I8.FP"
  | .isqrtI16Fp => "ISQRT.I16.FP"
  | .isqrtI32Fp => "ISQRT.I32.FP"
  | .isqrtI64Fp => "ISQRT.I64.FP"
  | .isqrtI128Fp => "ISQRT.I128.FP"
  | .isqrtI8Kar => "ISQRT.I8.KAR"
  | .isqrtI16Kar => "ISQRT.I16.KAR"
  | .isqrtI32Kar => "ISQRT.I32.KAR"
  | .isqrtI64Kar => "ISQRT.I64.KAR"
  | .isqrtI128Kar => "ISQRT.I128.KAR"

/-- All commands, in the opcode map's order (R89). -/
def allInstrs : List Instr :=
  [.isqrtU8Bin, .isqrtU16Bin, .isqrtU32Bin, .isqrtU64Bin, .isqrtU128Bin,
   .isqrtU8Fp, .isqrtU16Fp, .isqrtU32Fp, .isqrtU64Fp, .isqrtU128Fp,
   .isqrtU8Kar, .isqrtU16Kar, .isqrtU32Kar, .isqrtU64Kar, .isqrtU128Kar,
   .isqrtremU8Kar, .isqrtremU16Kar, .isqrtremU32Kar, .isqrtremU64Kar, .isqrtremU128Kar,
   .chksqrtI8Bin, .chksqrtI16Bin, .chksqrtI32Bin, .chksqrtI64Bin, .chksqrtI128Bin,
   .chksqrtI8Fp, .chksqrtI16Fp, .chksqrtI32Fp, .chksqrtI64Fp, .chksqrtI128Fp,
   .chksqrtI8Kar, .chksqrtI16Kar, .chksqrtI32Kar, .chksqrtI64Kar, .chksqrtI128Kar,
   .isqrtI8Bin, .isqrtI16Bin, .isqrtI32Bin, .isqrtI64Bin, .isqrtI128Bin,
   .isqrtI8Fp, .isqrtI16Fp, .isqrtI32Fp, .isqrtI64Fp, .isqrtI128Fp,
   .isqrtI8Kar, .isqrtI16Kar, .isqrtI32Kar, .isqrtI64Kar, .isqrtI128Kar]

/-- Assembling one mnemonic, in capitals or not (R90): the command it names, if any. -/
def instrOfMnemonic (m : List Char) : Option Instr :=
  allInstrs.find? (fun i => m.map Char.toUpper == i.mnemonic.toList)

end Sys2Proof
end

