-- ==== Sys2Proof/Machine/Arith.lean ====
section
/-! DEFINITION. The pseudocode primitives on naturals that the engines share (00_scope.md section 6). -/

namespace Sys2Proof.Machine

/-- `ilog2(n)`: for n ≥ 1, the largest k with 2^k ≤ n. -/
def ilog2 (n : Nat) : Nat := Nat.log2 n

/-- `clz_W(n)`: W minus the number of bits of n; W for n = 0. -/
def clz (w n : Nat) : Nat := if n = 0 then w else w - (ilog2 n + 1)

/-- `even(k)`: k with bit 0 cleared. -/
def evenDown (k : Nat) : Nat := k - k % 2

/-- `trunc_W(v)`: the low W bits. -/
def truncTo (w v : Nat) : Nat := v % 2 ^ w

/-- `csq_W(x)`: the square, or none for `OVF` when it does not fit in W bits (R142). -/
def checkedSquare (w x : Nat) : Option Nat := if x * x < 2 ^ w then some (x * x) else none

end Sys2Proof.Machine
end

