-- ==== Sys2Proof/Machine/BinEngine.lean ====
section
/-! DEFINITION. The binary digit-by-digit engine BIN (41_binary.md R120). Every variable is a W-bit value. -/

namespace Sys2Proof.Machine

/-- The three variables of the loop of R120, each held in w bits. -/
structure BinRegs (w : Nat) where
  /-- the remainder-tracking value -/
  op  : BitVec w
  /-- the result accumulator -/
  res : BitVec w
  /-- the current digit's weight -/
  one : BitVec w
  deriving DecidableEq, Repr

/-- The variables before the first pass: `one = 2^even(ilog2(n))` (R120, C1). -/
def binStart {w : Nat} (n : BitVec w) : BinRegs w where
  op  := n
  res := 0#w
  one := BitVec.ofNat w (2 ^ evenDown (ilog2 n.toNat))

/-- One pass of the loop body of R120. -/
def binPass {w : Nat} (v : BinRegs w) : BinRegs w :=
  if v.res + v.one ≤ v.op then
    ⟨v.op - (v.res + v.one), (v.res >>> 1) + v.one, v.one >>> 2⟩
  else
    ⟨v.op, v.res >>> 1, v.one >>> 2⟩

/-- The loop `while one != 0` of R120, for at most fuel passes. -/
def binLoop {w : Nat} : (fuel : Nat) → BinRegs w → BinRegs w
  | 0, v => v
  | fuel + 1, v => if v.one = 0#w then v else binLoop fuel (binPass v)

/-- `BinIsqrt_W(n)` (R120). W/2 passes always suffice (R129). -/
def binIsqrt {w : Nat} (n : BitVec w) : BitVec w :=
  if n.toNat < 2 then n else (binLoop (w / 2) (binStart n)).res

/-- The BIN engine at width w, as a function of the operand's value. -/
def binEngine (w n : Nat) : Nat := (binIsqrt (BitVec.ofNat w n)).toNat

end Sys2Proof.Machine
end

