-- ==== Sys2Proof/Config.lean ====
section
/-! DEFINITION. The open parameter BASE of the spec (00_scope.md rule R7). The other open parameter, LAT (R8),
appears in no rule and has no constant here: see log entry 9. -/

namespace Sys2Proof

/-- Which 256-byte slot of the host's address space the platform gives the window.
Nothing constrains it: a statement holds for every platform (D35; log entry 8). -/
opaque Config.windowIndex : Nat

/-- BASE, a multiple of 256 (R7). -/
def Config.base : Nat := 256 * Config.windowIndex

end Sys2Proof
end

