-- ==== Sys2Proof/Machine/State.lean ====
section
/-! DEFINITION. The state of the ISQRT CORE (10_state.md), its state at reset (70_reset_and_hazards.md R280, R281), and
the reasons a step can stop. -/

namespace Sys2Proof.Machine

/-- The engine state (R36). -/
inductive EngineState where
  | idle | busy | halted
  deriving DecidableEq, Repr

/-- The cause of a fault (R32, R250); the codes 4 to 15 are never produced, so they have no name. -/
inductive Cause where
  | none | domain | illegal | protocol
  deriving DecidableEq, Repr

/-- The fields of STATUS (R27). The reserved bits 31:8 read 0 and are never written (R33); `Status.word` in
Machine/Flags.lean computes the 32-bit word a host reads. -/
structure Status where
  /-- bit 0 (R28) -/
  busy   : Bool
  /-- bit 1 (R29) -/
  done   : Bool
  /-- bit 2 (R30) -/
  absent : Bool
  /-- bit 3, sticky (R31) -/
  halted : Bool
  /-- bits 7:4, sticky (R32) -/
  cause  : Cause
  deriving DecidableEq, Repr

/-- The two agents that step the unit (R20). -/
inductive Agent where
  | host | engine
  deriving DecidableEq, Repr

/-- One flag per 32-bit word of a 128-bit register (R39). -/
abbrev WordFlags := Vector Bool 4

/-- Why a run ends. The hardware faults of R250 are not here: they are next states (R256). -/
inductive Fault where
  /-- `ModelFault(UnwrittenRead)`: raised by a host read of a word of OPND, ROOT or REM whose written-flag is false. The
  spec's own fault of a model: R57 raises it, R281 repeats it, and R262 ends the run in it and forbids a value in its place
  ('A model may not turn these into values.'). Safe. -/
  | unwrittenRead
  /-- `ModelFault(UnwrittenOperand)`: raised by the engine step of a legal command that reads an OPND word unwritten when it
  was latched. The spec's own fault of a model: the pseudocode of R95 raises it, R254 ranks it before DOMAIN, and R262 ends
  the run in it and forbids a value in its place ('A model may not turn these into values.'). Safe. -/
  | unwrittenOperand
  /-- Raised when the host's next access is not admitted (R54) and the engine has no step to take: the host is stuck.
  Safe: the hardware answers a bus error and changes no state, and the spec gives the model no step. -/
  | inadmissibleAccess
  deriving DecidableEq, Repr

/-- Why an instruction has no meaning. -/
inductive Refusal where
  /-- Raised by exec alone, for a command whose meaning is not written yet; no arm does so now. Safe. -/
  | notModelled (mnemonic : String)
  deriving DecidableEq, Repr

/-- The state of one ISQRT CORE and of the host that drives it. -/
structure State where
  /-- The operand register OPND (R23). -/
  opnd         : Reg128
  /-- The root result register ROOT (R24). -/
  root         : Reg128
  /-- The remainder result register REM (R25). -/
  rem          : Reg128
  /-- Written-flags of OPND's words (R39). -/
  opndWritten  : WordFlags
  /-- Written-flags of ROOT's words (R39). -/
  rootWritten  : WordFlags
  /-- Written-flags of REM's words (R39). -/
  remWritten   : WordFlags
  /-- STATUS (R27). -/
  status       : Status
  /-- FCMD, the faulting command word (R34). -/
  fcmd         : Word32
  /-- LCMD, the latched command word (R35). -/
  lcmd         : Word32
  /-- LOPND, the latched operand (R35). -/
  lopnd        : Reg128
  /-- The written-flags OPND had when it was latched (R93). -/
  lopndWritten : WordFlags
  /-- The engine state (R36). -/
  engine       : EngineState
  /-- The MODEL's own field: what the host still has to do, oldest first (R20, R91; log entry 4). -/
  hostOps      : List HostOp
  /-- The MODEL's own field: the words host reads have returned, oldest first (R55; log entry 4). -/
  hostReads    : List Word32
  /-- The MODEL's own field: which agent moves at each coming step where both can (R20, R284; log entry 5). -/
  turns        : List Agent
  deriving DecidableEq, Repr

/-- The state right after reset (R280): IDLE, STATUS and FCMD 0, all written-flags false. The spec leaves OPND, ROOT, REM
and the latch unspecified (R281); the zeros here are the model's (DESIGN CHOICE, log entry 1). The host has nothing to do
and no schedule (the model's own fields, DESIGN CHOICE, log entries 4 and 5). -/
def State.reset : State where
  opnd         := 0#128
  root         := 0#128
  rem          := 0#128
  opndWritten  := .replicate 4 false
  rootWritten  := .replicate 4 false
  remWritten   := .replicate 4 false
  status       := ⟨false, false, false, false, .none⟩
  fcmd         := 0#32
  lcmd         := 0#32
  lopnd        := 0#128
  lopndWritten := .replicate 4 false
  engine       := .idle
  hostOps      := []
  hostReads    := []
  turns        := []

end Sys2Proof.Machine
end

