-- ==== Sys2Proof/Machine/Flags.lean ====
section
/-! DEFINITION. STATUS as the host reads it and every change a command, an acceptance or a fault makes to its fields
(10_state.md R27-R33, 60_exceptions.md R250, R256). -/

namespace Sys2Proof.Machine

/-- The code of a cause in STATUS.CAUSE (R250). -/
def Cause.code : Cause → BitVec 4
  | .none => 0
  | .domain => 1
  | .illegal => 2
  | .protocol => 3

/-- The STATUS word (R27): BUSY 0, DONE 1, ABSENT 2, HALTED 3, CAUSE 7:4, and zeros in 31:8 (R33). -/
def Status.word (t : Status) : Word32 :=
  0#24 ++ t.cause.code ++ BitVec.ofBool t.halted ++ BitVec.ofBool t.absent
    ++ BitVec.ofBool t.done ++ BitVec.ofBool t.busy

/-- STATUS at reset: every field 0 (R280). -/
def Status.atReset : Status := ⟨false, false, false, false, .none⟩

/-- An accepted CMD write sets BUSY and clears DONE; ABSENT stays (R93, R30). -/
def Status.accept (t : Status) : Status := { t with busy := true, done := false }

/-- A completed command clears BUSY, sets DONE and writes ABSENT (R96). -/
def Status.complete (absent : Bool) (t : Status) : Status :=
  { t with busy := false, done := true, absent := absent }

/-- A fault clears BUSY, DONE and ABSENT, sets HALTED and writes CAUSE (R256). -/
def Status.fail (c : Cause) (_t : Status) : Status := ⟨false, false, false, true, c⟩

/-- The STATUS of a clean-entry state: no fault (R283). -/
def Status.clearFault (t : Status) : Status := { t with halted := false, cause := .none }

end Sys2Proof.Machine
end

