-- ==== Sys2Proof/Machine/Operands.lean ====
section
/-! DEFINITION. Operand assembly (30_encoding.md R87, 00_scope.md R3): the one operand form of every command. -/

namespace Sys2Proof.Machine

/-- The operand of a command of width w: the low w bits of the latch (R87). The bits above are ignored. -/
def operand (w : Nat) (latch : Reg128) : BitVec w := latch.extractLsb' 0 w

/-- The two's-complement value of an operand of width w (R3, R87): `a - 2^w * a[w-1]`. -/
def signedValue {w : Nat} (a : BitVec w) : Int :=
  (a.toNat : Int) - 2 ^ w * (if a.msb then 1 else 0)

/-- The sign test of the signed wrapper: bit w-1 and nothing else (R200, R204). -/
def isNegative {w : Nat} (a : BitVec w) : Bool := a.msb

/-- Whether every word k of the operand with 32k < w was written when it was latched (R95). -/
def operandWritten (w : Nat) (written : WordFlags) : Bool :=
  written[0] && (w ≤ 32 || written[1]) && (w ≤ 64 || written[2]) && (w ≤ 96 || written[3])

end Sys2Proof.Machine
end

