-- ==== Sys2Proof/Machine/Ops.lean ====
section
/-! DEFINITION. The named operations on the state: words of the 128-bit registers, the window map, host reads and writes,
acceptance of a command, its completion, taking a fault, and reset. -/

namespace Sys2Proof.Machine

/-- All four words written. -/
def allWritten : WordFlags := .replicate 4 true

/-- No word written. -/
def noneWritten : WordFlags := .replicate 4 false

/-- Word k of a 128-bit register: bits 32k+31 down to 32k (R52). -/
def getWord (r : Reg128) (k : Fin 4) : Word32 := r.extractLsb' (32 * k.val) 32

/-- A 128-bit register with word k replaced (R52, R56). -/
def setWord (r : Reg128) (k : Fin 4) (v : Word32) : Reg128 :=
  (r &&& ~~~((BitVec.allOnes 32).setWidth 128 <<< (32 * k.val))) ||| (v.setWidth 128 <<< (32 * k.val))

/-- What stands at an offset of the window (R51). -/
inductive WindowReg where
  | opnd (k : Fin 4)
  | root (k : Fin 4)
  | rem (k : Fin 4)
  | cmd
  | status
  | fcmd
  | reserved
  deriving DecidableEq, Repr

/-- The number of the word an offset names within its 16-byte register (R51, R52). -/
def wordIndex (off : Nat) : Fin 4 := ⟨off / 4 % 4, Nat.mod_lt _ (by decide)⟩

/-- The register window map (R51). -/
def windowReg (off : Nat) : WindowReg :=
  if off < 0x10 then .opnd (wordIndex off)
  else if off < 0x20 then .root (wordIndex off)
  else if off < 0x30 then .rem (wordIndex off)
  else if off = 0x30 then .cmd
  else if off = 0x34 then .status
  else if off = 0x38 then .fcmd
  else .reserved

/-- The offset from BASE of an address of the host's address space; the window is the offsets 0 to 255 (R7, R50). -/
def windowOffset (addr : Nat) : Int := (addr : Int) - Config.base

/-- A word that is readable only when its written-flag is true (R57). -/
def readFlagged (r : Reg128) (written : WordFlags) (k : Fin 4) : Option Word32 :=
  if written.get k then some (getWord r k) else none

/-- `MemRead(off, 4)` (R55); none where R57 gives the word no defined value. -/
def memRead (off : Nat) (s : State) : Option Word32 :=
  match windowReg off with
  | .opnd k => readFlagged s.opnd s.opndWritten k
  | .root k => readFlagged s.root s.rootWritten k
  | .rem k => readFlagged s.rem s.remWritten k
  | .cmd => some 0#32
  | .status => some s.status.word
  | .fcmd => some s.fcmd
  | .reserved => some 0#32

/-- Byte j of the word a read returns: bits 8j+7 down to 8j (R52). -/
def byteOf (v : Word32) (j : Nat) : Byte := v.extractLsb' (8 * (j % 4)) 8

/-- The byte a host bus numbers off within the window: byte off % 4 of the word it lies in (R52). -/
def windowByte (off : Nat) (s : State) : Option Byte :=
  (memRead (4 * (off / 4)) s).map (fun v => byteOf v off)

/-- `Fault(c, w)` (R256): the one operation that takes a hardware fault. There is no return from it but reset (R258). -/
def raiseFault (c : Cause) (w : Word32) (s : State) : State :=
  { s with engine := .halted, status := s.status.fail c, fcmd := w }

/-- The acceptance branch of `CommandWrite(v)` (R93): latch the word and OPND with its written-flags, set BUSY. -/
def latchCommand (v : Word32) (s : State) : State :=
  { s with lcmd := v, lopnd := s.opnd, lopndWritten := s.opndWritten,
           engine := .busy, status := s.status.accept }

/-- `CommandWrite(v)` (R93): PROTOCOL while a command is in flight (R253), acceptance otherwise. -/
def commandWrite (v : Word32) (s : State) : State :=
  if s.engine = .busy then raiseFault .protocol v s else latchCommand v s

/-- A host write of one word of OPND (R56). -/
def writeOpnd (k : Fin 4) (v : Word32) (s : State) : State :=
  { s with opnd := setWord s.opnd k v, opndWritten := s.opndWritten.set k.val true k.isLt }

/-- `MemWrite(off, 4, v)` (R56): ignored while HALTED (R259), and ignored at read-only and reserved offsets. -/
def memWrite (off : Nat) (v : Word32) (s : State) : State :=
  if s.status.halted then s
  else match windowReg off with
    | .opnd k => writeOpnd k v s
    | .cmd => commandWrite v s
    | .root _ => s
    | .rem _ => s
    | .status => s
    | .fcmd => s
    | .reserved => s

/-- The remainder part of `Complete` (R96): a command without a remainder leaves REM and its flags alone (R25). -/
def writeRem (m : Option Nat) (s : State) : State :=
  match m with
  | none => s
  | some m => { s with rem := BitVec.ofNat 128 m, remWritten := allWritten }

/-- `Complete(r, m, absent)` (R96), with the written-flags of R39. -/
def complete (r : Nat) (m : Option Nat) (absent : Bool) (s : State) : State :=
  { writeRem m s with
    root := BitVec.ofNat 128 r, rootWritten := allWritten,
    status := s.status.complete absent, engine := .idle }

/-- What `Perform` yields (R95, R97). -/
inductive CmdOutcome where
  | root (r : Nat)
  | rootRem (r m : Nat)
  | absent
  | domainError
  deriving DecidableEq, Repr

/-- The case distinction at the end of the engine step (R95). -/
def settle (o : CmdOutcome) (s : State) : State :=
  match o with
  | .root r => complete r none false s
  | .rootRem r m => complete r (some m) false s
  | .absent => complete 0 none true s
  | .domainError => raiseFault .domain s.lcmd s

/-- The engine step of a legal command of width w whose `Perform` is given (R95): the written-flag check, which raises
`ModelFault(UnwrittenOperand)` as the pseudocode of R95 and R262 state, the operand, then the outcome. -/
def runCommand (w : Nat) (perform : BitVec w → CmdOutcome) (s : State) :
    Host.Outcome State Fault Refusal :=
  if operandWritten w s.lopndWritten then .next (settle (perform (operand w s.lopnd)) s)
  else .fault .unwrittenOperand

/-- `Reset()` (R280) on any state: everything the unit holds becomes what it is at reset; the host's own program and
answers are not the unit's to reset. It belongs to the launch and is no part of a step (R258; log entry 10). -/
def resetBlock (s : State) : State :=
  { State.reset with hostOps := s.hostOps, hostReads := s.hostReads, turns := s.turns }

/-- A command put where the next engine step takes it: as if a host had written all four OPND words, with the values they
hold, in a clean-entry state (R283), and then CMD; the next step is the engine's (log entry 11). -/
def placeCommand (c : Word32) (s : State) : State :=
  latchCommand c
    { s with opndWritten := allWritten, status := s.status.clearFault, fcmd := 0#32, engine := .idle,
             turns := if s.hostOps = [] then s.turns else .engine :: s.turns }

end Sys2Proof.Machine
end

