-- ==== Sys2Proof/Machine/Perform.lean ====
section
/-! DEFINITION. `Perform` by operation (30_encoding.md R95, R97; 44_signed.md R200), over an engine given as a function
of the operand's value. -/

namespace Sys2Proof.Machine

/-- ISQRT.U: the engine's root of the unsigned operand (R87, R97). -/
def performUnsigned (eng : Nat → Nat) {w : Nat} (a : BitVec w) : CmdOutcome := .root (eng a.toNat)

/-- ISQRTREM.U: the with-remainder variant's pair (R175). -/
def performRem (eng : Nat → Nat × Nat) {w : Nat} (a : BitVec w) : CmdOutcome :=
  .rootRem (eng a.toNat).1 (eng a.toNat).2

/-- `SignedRoot` (R200): none for Negative; a non-negative operand is its own unsigned value. -/
def signedRoot (eng : Nat → Nat) {w : Nat} (a : BitVec w) : Option Nat :=
  if isNegative a then none else some (eng a.toNat)

/-- CHKSQRT.I (R200, R201): a negative operand is reported absent. -/
def performChecked (eng : Nat → Nat) {w : Nat} (a : BitVec w) : CmdOutcome :=
  match signedRoot eng a with
  | none => .absent
  | some r => .root r

/-- ISQRT.I (R200, R202): a negative operand is the domain error. -/
def performFatal (eng : Nat → Nat) {w : Nat} (a : BitVec w) : CmdOutcome :=
  match signedRoot eng a with
  | none => .domainError
  | some r => .root r

end Sys2Proof.Machine
end

