-- ==== Sys2Proof/Machine/Binary.lean ====
section
/-! DEFINITION. The commands ISQRT.U<W>.BIN (41_binary.md section 2). -/

namespace Sys2Proof.Machine

/-- ISQRT.U8.BIN (R124). -/
def execIsqrtU8Bin (s : State) : Host.Outcome State Fault Refusal :=
  runCommand 8 (performUnsigned (binEngine 8)) s

/-- ISQRT.U16.BIN (R125). -/
def execIsqrtU16Bin (s : State) : Host.Outcome State Fault Refusal :=
  runCommand 16 (performUnsigned (binEngine 16)) s

/-- ISQRT.U32.BIN (R126). -/
def execIsqrtU32Bin (s : State) : Host.Outcome State Fault Refusal :=
  runCommand 32 (performUnsigned (binEngine 32)) s

/-- ISQRT.U64.BIN (R127). -/
def execIsqrtU64Bin (s : State) : Host.Outcome State Fault Refusal :=
  runCommand 64 (performUnsigned (binEngine 64)) s

/-- ISQRT.U128.BIN (R128). -/
def execIsqrtU128Bin (s : State) : Host.Outcome State Fault Refusal :=
  runCommand 128 (performUnsigned (binEngine 128)) s

end Sys2Proof.Machine
end

