-- ==== Sys2Proof/Machine/BaseTable.lean ====
section
/-! DEFINITION. The base-case table ROM (40_base_table.md): 256 fixed entries, transcribed from the grid of its section
2, and TableRead. No event changes it (R38, R114), so it is a constant and not a field of State (log entry 13). -/

namespace Sys2Proof.Machine

/-- An entry: root and remainder (R110). -/
abbrev TableEntry := Byte × Byte

/-- Entries 0x00 to 0x0F of the grid. -/
def tableRow0 : List TableEntry :=
  [(0, 0), (1, 0), (1, 1), (1, 2), (2, 0), (2, 1), (2, 2), (2, 3), (2, 4), (3, 0), (3, 1), (3, 2), (3, 3), (3, 4), (3, 5), (3, 6)]

/-- Entries 0x10 to 0x1F of the grid. -/
def tableRow1 : List TableEntry :=
  [(4, 0), (4, 1), (4, 2), (4, 3), (4, 4), (4, 5), (4, 6), (4, 7), (4, 8), (5, 0), (5, 1), (5, 2), (5, 3), (5, 4), (5, 5), (5, 6)]

/-- Entries 0x20 to 0x2F of the grid. -/
def tableRow2 : List TableEntry :=
  [(5, 7), (5, 8), (5, 9), (5, 10), (6, 0), (6, 1), (6, 2), (6, 3), (6, 4), (6, 5), (6, 6), (6, 7), (6, 8), (6, 9), (6, 10), (6, 11)]

/-- Entries 0x30 to 0x3F of the grid. -/
def tableRow3 : List TableEntry :=
  [(6, 12), (7, 0), (7, 1), (7, 2), (7, 3), (7, 4), (7, 5), (7, 6), (7, 7), (7, 8), (7, 9), (7, 10), (7, 11), (7, 12), (7, 13), (7, 14)]

/-- Entries 0x40 to 0x4F of the grid. -/
def tableRow4 : List TableEntry :=
  [(8, 0), (8, 1), (8, 2), (8, 3), (8, 4), (8, 5), (8, 6), (8, 7), (8, 8), (8, 9), (8, 10), (8, 11), (8, 12), (8, 13), (8, 14), (8, 15)]

/-- Entries 0x50 to 0x5F of the grid. -/
def tableRow5 : List TableEntry :=
  [(8, 16), (9, 0), (9, 1), (9, 2), (9, 3), (9, 4), (9, 5), (9, 6), (9, 7), (9, 8), (9, 9), (9, 10), (9, 11), (9, 12), (9, 13), (9, 14)]

/-- Entries 0x60 to 0x6F of the grid. -/
def tableRow6 : List TableEntry :=
  [(9, 15), (9, 16), (9, 17), (9, 18), (10, 0), (10, 1), (10, 2), (10, 3), (10, 4), (10, 5), (10, 6), (10, 7), (10, 8), (10, 9), (10, 10), (10, 11)]

/-- Entries 0x70 to 0x7F of the grid. -/
def tableRow7 : List TableEntry :=
  [(10, 12), (10, 13), (10, 14), (10, 15), (10, 16), (10, 17), (10, 18), (10, 19), (10, 20), (11, 0), (11, 1), (11, 2), (11, 3), (11, 4), (11, 5), (11, 6)]

/-- Entries 0x80 to 0x8F of the grid. -/
def tableRow8 : List TableEntry :=
  [(11, 7), (11, 8), (11, 9), (11, 10), (11, 11), (11, 12), (11, 13), (11, 14), (11, 15), (11, 16), (11, 17), (11, 18), (11, 19), (11, 20), (11, 21), (11, 22)]

/-- Entries 0x90 to 0x9F of the grid. -/
def tableRow9 : List TableEntry :=
  [(12, 0), (12, 1), (12, 2), (12, 3), (12, 4), (12, 5), (12, 6), (12, 7), (12, 8), (12, 9), (12, 10), (12, 11), (12, 12), (12, 13), (12, 14), (12, 15)]

/-- Entries 0xA0 to 0xAF of the grid. -/
def tableRowA : List TableEntry :=
  [(12, 16), (12, 17), (12, 18), (12, 19), (12, 20), (12, 21), (12, 22), (12, 23), (12, 24), (13, 0), (13, 1), (13, 2), (13, 3), (13, 4), (13, 5), (13, 6)]

/-- Entries 0xB0 to 0xBF of the grid. -/
def tableRowB : List TableEntry :=
  [(13, 7), (13, 8), (13, 9), (13, 10), (13, 11), (13, 12), (13, 13), (13, 14), (13, 15), (13, 16), (13, 17), (13, 18), (13, 19), (13, 20), (13, 21), (13, 22)]

/-- Entries 0xC0 to 0xCF of the grid. -/
def tableRowC : List TableEntry :=
  [(13, 23), (13, 24), (13, 25), (13, 26), (14, 0), (14, 1), (14, 2), (14, 3), (14, 4), (14, 5), (14, 6), (14, 7), (14, 8), (14, 9), (14, 10), (14, 11)]

/-- Entries 0xD0 to 0xDF of the grid. -/
def tableRowD : List TableEntry :=
  [(14, 12), (14, 13), (14, 14), (14, 15), (14, 16), (14, 17), (14, 18), (14, 19), (14, 20), (14, 21), (14, 22), (14, 23), (14, 24), (14, 25), (14, 26), (14, 27)]

/-- Entries 0xE0 to 0xEF of the grid. -/
def tableRowE : List TableEntry :=
  [(14, 28), (15, 0), (15, 1), (15, 2), (15, 3), (15, 4), (15, 5), (15, 6), (15, 7), (15, 8), (15, 9), (15, 10), (15, 11), (15, 12), (15, 13), (15, 14)]

/-- Entries 0xF0 to 0xFF of the grid. -/
def tableRowF : List TableEntry :=
  [(15, 15), (15, 16), (15, 17), (15, 18), (15, 19), (15, 20), (15, 21), (15, 22), (15, 23), (15, 24), (15, 25), (15, 26), (15, 27), (15, 28), (15, 29), (15, 30)]

/-- The contents of the ROM (R110, R111). -/
def baseTable : List TableEntry :=
  List.flatten
    [tableRow0, tableRow1, tableRow2, tableRow3, tableRow4, tableRow5, tableRow6, tableRow7,
     tableRow8, tableRow9, tableRowA, tableRowB, tableRowC, tableRowD, tableRowE, tableRowF]

/-- `TableRead(i)` (R66, R112): total, since an 8-bit index is never out of range. -/
def tableRead (i : Byte) : TableEntry := baseTable.getD i.toNat (0, 0)

/-- The source's construction pass (R111) from entry i on: k entries are still to be made, root is the current root and
count the number of entries still to be given that root. The unit does not run it; a law shows that it makes the ROM. -/
def tablePass : (k i root count : Nat) → List TableEntry
  | 0, _, _, _ => []
  | k + 1, i, root, count =>
    (BitVec.ofNat 8 root, BitVec.ofNat 8 (i - root * root)) ::
      (if count - 1 = 0 then tablePass k (i + 1) (root + 1) (2 * (root + 1) + 1)
       else tablePass k (i + 1) root (count - 1))

end Sys2Proof.Machine
end

