-- ==== Sys2Proof/Machine/KarEngine.lean ====
section
/-! DEFINITION. The Karatsuba engine KAR (43_karatsuba.md R160-R165, R175). Values are naturals; R162 bounds each of them
within the width, so a W-bit datapath computes the same (log entry 19). A level l stands for the width 8 * 2^l. -/

namespace Sys2Proof.Machine

/-- The width of a recursion level: 8, 16, 32, 64, 128 for levels 0 to 4 (R169). -/
def levelBits (l : Nat) : Nat := 8 * 2 ^ l

/-- The base case (R160): the pair of the table entry at an 8-bit value. -/
def tablePair (n : Nat) : Nat × Nat :=
  let e := tableRead (BitVec.ofNat 8 n)
  (e.1.toNat, e.2.toNat)

/-- The intermediate values of `KarStep_W`, named as R161 and R162 name them; s is the root before the correction. -/
structure KarVars where
  hi  : Nat
  s1  : Nat
  r1  : Nat
  num : Nat
  den : Nat
  q   : Nat
  u   : Nat
  s   : Nat
  t   : Nat
  deriving DecidableEq, Repr

/-- Steps 3 to 7 of `KarStep_W(m, halfRem)` up to the correction (R161). -/
def karVars (w m : Nat) (halfRem : Nat → Nat × Nat) : KarVars :=
  let h := w / 2
  let quarter := w / 4
  let hi := m / 2 ^ h
  let lo := m % 2 ^ h
  let s1 := (halfRem hi).1
  let r1 := (halfRem hi).2
  let num := r1 * 2 ^ quarter + lo / 2 ^ quarter
  let den := 2 * s1
  { hi := hi, s1 := s1, r1 := r1, num := num, den := den, q := num / den, u := num % den,
    s := s1 * 2 ^ quarter + num / den, t := num % den * 2 ^ quarter + lo % 2 ^ quarter }

/-- The end of step 7 of `KarStep_W`, the borrow correction (R161). The remainder of the borrow case,
`t - q*q + 2*s - 1`, is not negative (R164). -/
def karCombine (v : KarVars) : Nat × Nat :=
  if v.q * v.q ≤ v.t then (v.s, v.t - v.q * v.q) else (v.s - 1, v.t + 2 * v.s - 1 - v.q * v.q)

/-- `KarStep_W(m, halfRem)` (R161). -/
def karStep (w m : Nat) (halfRem : Nat → Nat × Nat) : Nat × Nat := karCombine (karVars w m halfRem)

/-- `KarSqrtRemN` at a level, for a normalised value (R163). -/
def karSqrtRemN : (level : Nat) → Nat → Nat × Nat
  | 0, m => tablePair m
  | l + 1, m => karStep (levelBits (l + 1)) m (karSqrtRemN l)

/-- `KarTop_W(n, half, halfRem)` (R165). -/
def karTop (w n : Nat) (half : Nat → Nat) (halfRem : Nat → Nat × Nat) : Nat :=
  if w / 2 ≤ clz w n then half (truncTo (w / 2) n)
  else
    let k := evenDown (clz w n)
    (karStep w (n * 2 ^ k) halfRem).1 / 2 ^ (k / 2)

/-- `KarIsqrt` at a level (R160, R165). -/
def karIsqrt : (level : Nat) → Nat → Nat
  | 0, n => (tablePair n).1
  | l + 1, n => karTop (levelBits (l + 1)) n (karIsqrt l) (karSqrtRemN l)

/-- `KarIsqrtRem` at a level (R175). The remainder of a shifted operand is recomputed (D7, C10). -/
def karIsqrtRem : (level : Nat) → Nat → Nat × Nat
  | 0, n => tablePair n
  | l + 1, n =>
    let w := levelBits (l + 1)
    if w / 2 ≤ clz w n then karIsqrtRem l (truncTo (w / 2) n)
    else
      let k := evenDown (clz w n)
      let p := karStep w (n * 2 ^ k) (karSqrtRemN l)
      if k = 0 then p
      else
        let s := p.1 / 2 ^ (k / 2)
        (s, n - s * s)

end Sys2Proof.Machine
end

