-- ==== Sys2Proof/Machine/FpEngine.lean ====
section
/-! DEFINITION. The floating-point-corrected engine FP (42_fp.md R140-R145) over IEEE 754 binary64 (00_scope.md R5). -/

namespace Sys2Proof.Machine

/-- A finite non-negative binary64 value, `sig * 2^exp` with a significand of at most 53 bits. The exponents the engine
meets stay far inside binary64's range (R148). PRESUMED from the standard, as R5 and R140 are (log entry 12). -/
structure F64 where
  sig : Nat
  exp : Int
  deriving DecidableEq, Repr

/-- A rounded significand that reached 2^53 is 2^52 with the next exponent. -/
def F64.ofRounded (m : Nat) (e : Int) : F64 :=
  if m = 2 ^ 53 then ⟨2 ^ 52, e + 1⟩ else ⟨m, e⟩

/-- The natural nearest to n / 2^e, ties to even. -/
def roundShift (n e : Nat) : Nat :=
  let q := n / 2 ^ e
  let rest := n % 2 ^ e
  if 2 ^ e < 2 * rest ∨ (2 ^ e = 2 * rest ∧ q % 2 = 1) then q + 1 else q

/-- `F64(n)` (R140): the binary64 value nearest to n, ties to even; exact for n < 2^53. -/
def F64.ofNat (n : Nat) : F64 :=
  if n < 2 ^ 53 then ⟨n, 0⟩
  else
    let e := ilog2 n - 52
    F64.ofRounded (roundShift n e) e

/-- The floor of the real square root of x, for x < 4^k, by choosing the k result bits from the highest down; r holds the
bits chosen so far. Part of the definition of a correctly rounded root, not of any engine of the spec. -/
def floorRoot : (k x r : Nat) → Nat
  | 0, _, r => r
  | k + 1, x, r =>
    let c := r + 2 ^ k
    floorRoot k x (if c * c ≤ x then c else r)

/-- `fsqrt(f)` (R140): the binary64 value nearest to the real square root. The scaled operand x = f / 4^e is an integer
with 2^104 ≤ x < 2^106, so its root has 53 bits; `m + 1/2` is never a root of an integer, so no tie arises. -/
def F64.sqrt (f : F64) : F64 :=
  if f.sig = 0 then ⟨0, 0⟩
  else
    let e : Int := ((ilog2 f.sig : Int) + f.exp) / 2 - 52
    let x := f.sig * 2 ^ (f.exp - 2 * e).toNat
    let m := floorRoot 53 x 0
    F64.ofRounded (if m * m + m < x then m + 1 else m) e

/-- `ftrunc(f)` (R140): the largest natural k ≤ f. -/
def F64.trunc (f : F64) : Nat :=
  if 0 ≤ f.exp then f.sig * 2 ^ f.exp.toNat else f.sig / 2 ^ (-f.exp).toNat

/-- The candidate of R141. -/
def fpCandidate (n : Nat) : Nat := (F64.ofNat n).sqrt.trunc

/-- A checked square exceeds n, an overflow always does (R142). -/
def squareExceeds (sq : Option Nat) (n : Nat) : Bool :=
  match sq with
  | none => true
  | some v => n < v

/-- The correction of a candidate c (R141): at most one decrement or increment. -/
def fpCorrect (w n c : Nat) : Nat :=
  if squareExceeds (checkedSquare w c) n then c - 1
  else if !squareExceeds (checkedSquare w (c + 1)) n then c + 1
  else c

/-- `FpIsqrtSmall_W(n)` for W ≤ 64 (R141). -/
def fpIsqrtSmall (w n : Nat) : Nat := fpCorrect w n (fpCandidate n)

/-- `FpSqrtRem_64(x)` (R145). -/
def fpSqrtRem64 (x : Nat) : Nat × Nat :=
  let s := fpIsqrtSmall 64 x
  (s, x - s * s)

/-- `FpIsqrt_W(n)` (R144): at W = 128 one Karatsuba top level over the 64-bit engine (D31). -/
def fpIsqrt (w n : Nat) : Nat :=
  if w ≤ 64 then fpIsqrtSmall w n else karTop 128 n (fpIsqrtSmall 64) fpSqrtRem64

end Sys2Proof.Machine
end

