-- ==== Sys2Proof/Machine/CheckedSigned.lean ====
section
/-! DEFINITION. The commands CHKSQRT.I<W>.<E> (44_signed.md R210-R224). -/

namespace Sys2Proof.Machine

/-- CHKSQRT.I8.BIN (R210). -/
def execChksqrtI8Bin (s : State) : Host.Outcome State Fault Refusal :=
  runCommand 8 (performChecked (binEngine 8)) s

/-- CHKSQRT.I16.BIN (R211). -/
def execChksqrtI16Bin (s : State) : Host.Outcome State Fault Refusal :=
  runCommand 16 (performChecked (binEngine 16)) s

/-- CHKSQRT.I32.BIN (R212). -/
def execChksqrtI32Bin (s : State) : Host.Outcome State Fault Refusal :=
  runCommand 32 (performChecked (binEngine 32)) s

/-- CHKSQRT.I64.BIN (R213). -/
def execChksqrtI64Bin (s : State) : Host.Outcome State Fault Refusal :=
  runCommand 64 (performChecked (binEngine 64)) s

/-- CHKSQRT.I128.BIN (R214). -/
def execChksqrtI128Bin (s : State) : Host.Outcome State Fault Refusal :=
  runCommand 128 (performChecked (binEngine 128)) s

/-- CHKSQRT.I8.FP (R215). -/
def execChksqrtI8Fp (s : State) : Host.Outcome State Fault Refusal :=
  runCommand 8 (performChecked (fpIsqrt 8)) s

/-- CHKSQRT.I16.FP (R216). -/
def execChksqrtI16Fp (s : State) : Host.Outcome State Fault Refusal :=
  runCommand 16 (performChecked (fpIsqrt 16)) s

/-- CHKSQRT.I32.FP (R217). -/
def execChksqrtI32Fp (s : State) : Host.Outcome State Fault Refusal :=
  runCommand 32 (performChecked (fpIsqrt 32)) s

/-- CHKSQRT.I64.FP (R218). -/
def execChksqrtI64Fp (s : State) : Host.Outcome State Fault Refusal :=
  runCommand 64 (performChecked (fpIsqrt 64)) s

/-- CHKSQRT.I128.FP (R219). -/
def execChksqrtI128Fp (s : State) : Host.Outcome State Fault Refusal :=
  runCommand 128 (performChecked (fpIsqrt 128)) s

/-- CHKSQRT.I8.KAR (R220). -/
def execChksqrtI8Kar (s : State) : Host.Outcome State Fault Refusal :=
  runCommand 8 (performChecked (karIsqrt 0)) s

/-- CHKSQRT.I16.KAR (R221). -/
def execChksqrtI16Kar (s : State) : Host.Outcome State Fault Refusal :=
  runCommand 16 (performChecked (karIsqrt 1)) s

/-- CHKSQRT.I32.KAR (R222). -/
def execChksqrtI32Kar (s : State) : Host.Outcome State Fault Refusal :=
  runCommand 32 (performChecked (karIsqrt 2)) s

/-- CHKSQRT.I64.KAR (R223). -/
def execChksqrtI64Kar (s : State) : Host.Outcome State Fault Refusal :=
  runCommand 64 (performChecked (karIsqrt 3)) s

/-- CHKSQRT.I128.KAR (R224). -/
def execChksqrtI128Kar (s : State) : Host.Outcome State Fault Refusal :=
  runCommand 128 (performChecked (karIsqrt 4)) s

end Sys2Proof.Machine
end

