-- ==== Sys2Proof/Machine/FatalSigned.lean ====
section
/-! DEFINITION. The commands ISQRT.I<W>.<E> (44_signed.md R230-R244). -/

namespace Sys2Proof.Machine

/-- ISQRT.I8.BIN (R230). -/
def execIsqrtI8Bin (s : State) : Host.Outcome State Fault Refusal :=
  runCommand 8 (performFatal (binEngine 8)) s

/-- ISQRT.I16.BIN (R231). -/
def execIsqrtI16Bin (s : State) : Host.Outcome State Fault Refusal :=
  runCommand 16 (performFatal (binEngine 16)) s

/-- ISQRT.I32.BIN (R232). -/
def execIsqrtI32Bin (s : State) : Host.Outcome State Fault Refusal :=
  runCommand 32 (performFatal (binEngine 32)) s

/-- ISQRT.I64.BIN (R233). -/
def execIsqrtI64Bin (s : State) : Host.Outcome State Fault Refusal :=
  runCommand 64 (performFatal (binEngine 64)) s

/-- ISQRT.I128.BIN (R234). -/
def execIsqrtI128Bin (s : State) : Host.Outcome State Fault Refusal :=
  runCommand 128 (performFatal (binEngine 128)) s

/-- ISQRT.I8.FP (R235). -/
def execIsqrtI8Fp (s : State) : Host.Outcome State Fault Refusal :=
  runCommand 8 (performFatal (fpIsqrt 8)) s

/-- ISQRT.I16.FP (R236). -/
def execIsqrtI16Fp (s : State) : Host.Outcome State Fault Refusal :=
  runCommand 16 (performFatal (fpIsqrt 16)) s

/-- ISQRT.I32.FP (R237). -/
def execIsqrtI32Fp (s : State) : Host.Outcome State Fault Refusal :=
  runCommand 32 (performFatal (fpIsqrt 32)) s

/-- ISQRT.I64.FP (R238). -/
def execIsqrtI64Fp (s : State) : Host.Outcome State Fault Refusal :=
  runCommand 64 (performFatal (fpIsqrt 64)) s

/-- ISQRT.I128.FP (R239). -/
def execIsqrtI128Fp (s : State) : Host.Outcome State Fault Refusal :=
  runCommand 128 (performFatal (fpIsqrt 128)) s

/-- ISQRT.I8.KAR (R240). -/
def execIsqrtI8Kar (s : State) : Host.Outcome State Fault Refusal :=
  runCommand 8 (performFatal (karIsqrt 0)) s

/-- ISQRT.I16.KAR (R241). -/
def execIsqrtI16Kar (s : State) : Host.Outcome State Fault Refusal :=
  runCommand 16 (performFatal (karIsqrt 1)) s

/-- ISQRT.I32.KAR (R242). -/
def execIsqrtI32Kar (s : State) : Host.Outcome State Fault Refusal :=
  runCommand 32 (performFatal (karIsqrt 2)) s

/-- ISQRT.I64.KAR (R243). -/
def execIsqrtI64Kar (s : State) : Host.Outcome State Fault Refusal :=
  runCommand 64 (performFatal (karIsqrt 3)) s

/-- ISQRT.I128.KAR (R244). -/
def execIsqrtI128Kar (s : State) : Host.Outcome State Fault Refusal :=
  runCommand 128 (performFatal (karIsqrt 4)) s

end Sys2Proof.Machine
end

