-- ==== Sys2Proof/Machine/FloatingPoint.lean ====
section
/-! DEFINITION. The commands ISQRT.U<W>.FP (42_fp.md section 5). -/

namespace Sys2Proof.Machine

/-- ISQRT.U8.FP (R149). -/
def execIsqrtU8Fp (s : State) : Host.Outcome State Fault Refusal :=
  runCommand 8 (performUnsigned (fpIsqrt 8)) s

/-- ISQRT.U16.FP (R150). -/
def execIsqrtU16Fp (s : State) : Host.Outcome State Fault Refusal :=
  runCommand 16 (performUnsigned (fpIsqrt 16)) s

/-- ISQRT.U32.FP (R151). -/
def execIsqrtU32Fp (s : State) : Host.Outcome State Fault Refusal :=
  runCommand 32 (performUnsigned (fpIsqrt 32)) s

/-- ISQRT.U64.FP (R152). -/
def execIsqrtU64Fp (s : State) : Host.Outcome State Fault Refusal :=
  runCommand 64 (performUnsigned (fpIsqrt 64)) s

/-- ISQRT.U128.FP (R153). -/
def execIsqrtU128Fp (s : State) : Host.Outcome State Fault Refusal :=
  runCommand 128 (performUnsigned (fpIsqrt 128)) s

end Sys2Proof.Machine
end

