-- ==== Sys2Proof/Machine/Karatsuba.lean ====
section
/-! DEFINITION. The commands ISQRT.U<W>.KAR and ISQRTREM.U<W>.KAR (43_karatsuba.md section 6). -/

namespace Sys2Proof.Machine

/-- ISQRT.U8.KAR (R170). -/
def execIsqrtU8Kar (s : State) : Host.Outcome State Fault Refusal :=
  runCommand 8 (performUnsigned (karIsqrt 0)) s

/-- ISQRT.U16.KAR (R171). -/
def execIsqrtU16Kar (s : State) : Host.Outcome State Fault Refusal :=
  runCommand 16 (performUnsigned (karIsqrt 1)) s

/-- ISQRT.U32.KAR (R172). -/
def execIsqrtU32Kar (s : State) : Host.Outcome State Fault Refusal :=
  runCommand 32 (performUnsigned (karIsqrt 2)) s

/-- ISQRT.U64.KAR (R173). -/
def execIsqrtU64Kar (s : State) : Host.Outcome State Fault Refusal :=
  runCommand 64 (performUnsigned (karIsqrt 3)) s

/-- ISQRT.U128.KAR (R174). -/
def execIsqrtU128Kar (s : State) : Host.Outcome State Fault Refusal :=
  runCommand 128 (performUnsigned (karIsqrt 4)) s

/-- ISQRTREM.U8.KAR (R176). -/
def execIsqrtremU8Kar (s : State) : Host.Outcome State Fault Refusal :=
  runCommand 8 (performRem (karIsqrtRem 0)) s

/-- ISQRTREM.U16.KAR (R177). -/
def execIsqrtremU16Kar (s : State) : Host.Outcome State Fault Refusal :=
  runCommand 16 (performRem (karIsqrtRem 1)) s

/-- ISQRTREM.U32.KAR (R178). -/
def execIsqrtremU32Kar (s : State) : Host.Outcome State Fault Refusal :=
  runCommand 32 (performRem (karIsqrtRem 2)) s

/-- ISQRTREM.U64.KAR (R179). -/
def execIsqrtremU64Kar (s : State) : Host.Outcome State Fault Refusal :=
  runCommand 64 (performRem (karIsqrtRem 3)) s

/-- ISQRTREM.U128.KAR (R180). -/
def execIsqrtremU128Kar (s : State) : Host.Outcome State Fault Refusal :=
  runCommand 128 (performRem (karIsqrtRem 4)) s

end Sys2Proof.Machine
end

