-- ==== Sys2Proof/Machine/Dispatch.lean ====
section
/-! DEFINITION. The meaning of every command: the engine step once the latched word has decoded to it (30_encoding.md
R95). -/

namespace Sys2Proof.Machine

def exec (i : Instr) (s : State) : Host.Outcome State Fault Refusal :=
  match i with
  | .isqrtU8Bin => Sys2Proof.Machine.execIsqrtU8Bin s
  | .isqrtU16Bin => Sys2Proof.Machine.execIsqrtU16Bin s
  | .isqrtU32Bin => Sys2Proof.Machine.execIsqrtU32Bin s
  | .isqrtU64Bin => Sys2Proof.Machine.execIsqrtU64Bin s
  | .isqrtU128Bin => Sys2Proof.Machine.execIsqrtU128Bin s
  | .isqrtU8Fp => Sys2Proof.Machine.execIsqrtU8Fp s
  | .isqrtU16Fp => Sys2Proof.Machine.execIsqrtU16Fp s
  | .isqrtU32Fp => Sys2Proof.Machine.execIsqrtU32Fp s
  | .isqrtU64Fp => Sys2Proof.Machine.execIsqrtU64Fp s
  | .isqrtU128Fp => Sys2Proof.Machine.execIsqrtU128Fp s
  | .isqrtU8Kar => Sys2Proof.Machine.execIsqrtU8Kar s
  | .isqrtU16Kar => Sys2Proof.Machine.execIsqrtU16Kar s
  | .isqrtU32Kar => Sys2Proof.Machine.execIsqrtU32Kar s
  | .isqrtU64Kar => Sys2Proof.Machine.execIsqrtU64Kar s
  | .isqrtU128Kar => Sys2Proof.Machine.execIsqrtU128Kar s
  | .isqrtremU8Kar => Sys2Proof.Machine.execIsqrtremU8Kar s
  | .isqrtremU16Kar => Sys2Proof.Machine.execIsqrtremU16Kar s
  | .isqrtremU32Kar => Sys2Proof.Machine.execIsqrtremU32Kar s
  | .isqrtremU64Kar => Sys2Proof.Machine.execIsqrtremU64Kar s
  | .isqrtremU128Kar => Sys2Proof.Machine.execIsqrtremU128Kar s
  | .chksqrtI8Bin => Sys2Proof.Machine.execChksqrtI8Bin s
  | .chksqrtI16Bin => Sys2Proof.Machine.execChksqrtI16Bin s
  | .chksqrtI32Bin => Sys2Proof.Machine.execChksqrtI32Bin s
  | .chksqrtI64Bin => Sys2Proof.Machine.execChksqrtI64Bin s
  | .chksqrtI128Bin => Sys2Proof.Machine.execChksqrtI128Bin s
  | .chksqrtI8Fp => Sys2Proof.Machine.execChksqrtI8Fp s
  | .chksqrtI16Fp => Sys2Proof.Machine.execChksqrtI16Fp s
  | .chksqrtI32Fp => Sys2Proof.Machine.execChksqrtI32Fp s
  | .chksqrtI64Fp => Sys2Proof.Machine.execChksqrtI64Fp s
  | .chksqrtI128Fp => Sys2Proof.Machine.execChksqrtI128Fp s
  | .chksqrtI8Kar => Sys2Proof.Machine.execChksqrtI8Kar s
  | .chksqrtI16Kar => Sys2Proof.Machine.execChksqrtI16Kar s
  | .chksqrtI32Kar => Sys2Proof.Machine.execChksqrtI32Kar s
  | .chksqrtI64Kar => Sys2Proof.Machine.execChksqrtI64Kar s
  | .chksqrtI128Kar => Sys2Proof.Machine.execChksqrtI128Kar s
  | .isqrtI8Bin => Sys2Proof.Machine.execIsqrtI8Bin s
  | .isqrtI16Bin => Sys2Proof.Machine.execIsqrtI16Bin s
  | .isqrtI32Bin => Sys2Proof.Machine.execIsqrtI32Bin s
  | .isqrtI64Bin => Sys2Proof.Machine.execIsqrtI64Bin s
  | .isqrtI128Bin => Sys2Proof.Machine.execIsqrtI128Bin s
  | .isqrtI8Fp => Sys2Proof.Machine.execIsqrtI8Fp s
  | .isqrtI16Fp => Sys2Proof.Machine.execIsqrtI16Fp s
  | .isqrtI32Fp => Sys2Proof.Machine.execIsqrtI32Fp s
  | .isqrtI64Fp => Sys2Proof.Machine.execIsqrtI64Fp s
  | .isqrtI128Fp => Sys2Proof.Machine.execIsqrtI128Fp s
  | .isqrtI8Kar => Sys2Proof.Machine.execIsqrtI8Kar s
  | .isqrtI16Kar => Sys2Proof.Machine.execIsqrtI16Kar s
  | .isqrtI32Kar => Sys2Proof.Machine.execIsqrtI32Kar s
  | .isqrtI64Kar => Sys2Proof.Machine.execIsqrtI64Kar s
  | .isqrtI128Kar => Sys2Proof.Machine.execIsqrtI128Kar s

end Sys2Proof.Machine
end

