-- ==== Sys2Proof/Machine/EngineStep.lean ====
section
/-! DEFINITION. The engine agent's step (30_encoding.md R95). -/

namespace Sys2Proof.Machine

/-- `EngineStep()` (R95): decode the latched word; an illegal one raises ILLEGAL before the operand is looked at (R252,
R254); a legal one has its command's meaning. -/
def engineStep (s : State) : Host.Outcome State Fault Refusal :=
  match decode s.lcmd with
  | .illegal _ => .next (raiseFault .illegal s.lcmd s)
  | .ok i => exec i s

end Sys2Proof.Machine
end

