-- ==== Sys2Proof/Machine/HostPort.lean ====
section
/-! DEFINITION. The host agent's step on the register window (20_memory.md R54-R57, 30_encoding.md R91), the expansions of
the host command language, and which agent moves (10_state.md R20). -/

namespace Sys2Proof.Machine

/-- The host's answer to a read: the word is delivered, or it has no defined value and the model raises
`ModelFault(UnwrittenRead)`, as R57, R262 and R281 state. -/
def deliver (answer : Option Word32) (s : State) : Host.Outcome State Fault Refusal :=
  match answer with
  | none => .fault .unwrittenRead
  | some v => .next { s with hostReads := s.hostReads ++ [v] }

/-- One admitted access (R55, R56); the offset of an admitted access is not negative (R54). -/
def performAccess (a : HostAccess) (s : State) : Host.Outcome State Fault Refusal :=
  match a with
  | .read off _ => deliver (memRead off.toNat s) s
  | .write off _ v => .next (memWrite off.toNat v s)

/-- One round of a poll loop (R91, R291): read a word; stay in the loop, whose operation is op, until its bits under the mask
are the wanted ones. -/
def pollWord (op : HostOp) (off : Nat) (mask want : Word32) (rest : List HostOp) (s : State) :
    Host.Outcome State Fault Refusal :=
  let answer := memRead off s
  let ends := answer.any (fun v => v &&& mask == want)
  deliver answer { s with hostOps := if ends then rest else op :: rest }

/-- The host agent's step: its next operation. An access that is not admitted has no step (R54). -/
def hostStep (s : State) : Host.Outcome State Fault Refusal :=
  match s.hostOps with
  | [] => .next s
  | .access a :: rest =>
    if a.admitted then performAccess a { s with hostOps := rest } else .fault .inadmissibleAccess
  | .wait :: rest => pollWord .wait 0x34 1#32 0#32 rest s
  | .poll off mask want :: rest => pollWord (.poll off mask want) off.toNat mask want rest s

/-- The host can move: it has a next operation, and the operation is admitted (R54). -/
def hostReady (s : State) : Bool :=
  match s.hostOps with
  | [] => false
  | op :: _ => op.wf

/-- The engine can move exactly when the engine state is BUSY (R95). -/
def engineReady (s : State) : Bool := s.engine == .busy

/-- The agent the schedule names for this step; past its end it is the engine, which is then never kept waiting (R289). -/
def scheduled (s : State) : Agent := s.turns.headD .engine

/-- The agent that moves: the schedule decides where both can (R20, R284). -/
def nextAgent (s : State) : Option Agent :=
  if engineReady s then (if hostReady s then some (scheduled s) else some .engine)
  else if hostReady s then some .host
  else none

/-- Every step of an agent uses up one turn of the schedule. -/
def popTurn (s : State) : State := { s with turns := s.turns.tail }

/-- Nobody can move: the unit waits for a host with nothing left to do, or the host is stuck (R54). -/
def waitStep (s : State) : Host.Outcome State Fault Refusal :=
  if s.hostOps = [] then .next s else .fault .inadmissibleAccess

/-- `sw OFF, V` (R91). -/
def opSw (off : Int) (v : Word32) : List HostOp := [.access (.write off 4 v)]

/-- `lw rD, OFF` (R91); the word goes to the list of answers. -/
def opLw (off : Int) : List HostOp := [.access (.read off 4)]

/-- A word write at an address of the host's address space, as the unit's port sees it. One that does not lie whole in the
window, at either end, is not admitted and has no step (R54; 93_implementation_defined.md section 2). -/
def opSwAt (addr : Nat) (v : Word32) : List HostOp := opSw (windowOffset addr) v

/-- A word read at an address of the host's address space, likewise (R54). -/
def opLwAt (addr : Nat) : List HostOp := opLw (windowOffset addr)

/-- `ld.opnd V` (R91). -/
def opLdOpnd (v : Reg128) : List HostOp :=
  opSw 0x00 (getWord v 0) ++ opSw 0x04 (getWord v 1) ++ opSw 0x08 (getWord v 2) ++ opSw 0x0C (getWord v 3)

/-- `issue CMDNAME` (R91), given the command's word. -/
def opIssue (c : Word32) : List HostOp := opSw 0x30 c

/-- `wait rD` (R91). -/
def opWait : List HostOp := [.wait]

/-- A poll of STATUS for DONE = 1 (bit 1), which never ends on a halted unit (R291). -/
def opPollDone : List HostOp := [.poll 0x34 2#32 2#32]

/-- `rd.root` (R91). -/
def opRdRoot : List HostOp := opLw 0x10 ++ opLw 0x14 ++ opLw 0x18 ++ opLw 0x1C

/-- `rd.rem` (R91). -/
def opRdRem : List HostOp := opLw 0x20 ++ opLw 0x24 ++ opLw 0x28 ++ opLw 0x2C

/-- `sqrt CMDNAME, V, rS` (R91): one complete command. -/
def opSqrt (c : Word32) (v : Reg128) : List HostOp := opLdOpnd v ++ opIssue c ++ opWait

end Sys2Proof.Machine
end

