-- ==== Sys2Proof/Machine/Step.lean ====
section
/-! DEFINITION. One step of the ISQRT CORE and its host (10_state.md R20), and how a command is put before it. -/

namespace Sys2Proof.Machine

/-- One step: the agent whose turn it is moves. -/
def step (s : State) : Host.Outcome State Fault Refusal :=
  match nextAgent s with
  | some .engine => engineStep (popTurn s)
  | some .host => hostStep (popTurn s)
  | none => waitStep s

/-- The state with a table word latched, so that the very next step is that command's engine step (log entry 11). -/
def State.withFetchWord (s : State) (nbits w : Nat) : State := placeCommand (tableWord nbits w) s

end Sys2Proof.Machine
end

