-- ==== Sys2Proof/Safety.lean ====
section
/-! DEFINITION. What claims about the ISQRT CORE are stated in: the contract of a root (00_scope.md R9), the relations
between STATUS, the engine state and FCMD that the rules promise (10_state.md), launch and end of a run
(70_reset_and_hazards.md R283, R291), and when two states differ only in words without a defined value (R39, R57). -/

namespace Sys2Proof

/-- r is isqrt(n): the largest natural with r*r ≤ n (R9). -/
abbrev IsRoot (n r : Nat) : Prop := r * r ≤ n ∧ n < (r + 1) * (r + 1)

namespace Machine

/-- What the rules of 10_state.md promise of STATUS, the engine state, FCMD and the written-flags. -/
structure State.Consistent (s : State) : Prop where
  /-- R28 -/
  busy_iff     : s.status.busy = true ↔ s.engine = .busy
  /-- R31 -/
  halted_iff   : s.status.halted = true ↔ s.engine = .halted
  /-- R32 -/
  cause_iff    : s.status.cause = .none ↔ s.status.halted = false
  /-- R29 -/
  done_busy    : ¬(s.status.done = true ∧ s.status.busy = true)
  /-- R29, R30: a fault clears DONE and ABSENT, and nothing sets them again -/
  halted_clear : s.status.halted = true → s.status.done = false ∧ s.status.absent = false
  /-- R34 -/
  fcmd_zero    : s.status.halted = false → s.fcmd = 0#32
  /-- R39: a command writes all four words of ROOT -/
  root_whole   : s.rootWritten = allWritten ∨ s.rootWritten = noneWritten
  /-- R39: a command writes all four words of REM -/
  rem_whole    : s.remWritten = allWritten ∨ s.remWritten = noneWritten
  /-- R96: a completed command has written ROOT -/
  done_root    : s.status.done = true → s.rootWritten = allWritten
  /-- R201: an absent result is ROOT = 0 -/
  absent_root  : s.status.absent = true → s.root = 0#128 ∧ s.rootWritten = allWritten

/-- The results stay within the bounds of R10 at the largest width: a root below 2^64 and a remainder of at most twice
the largest root. -/
def State.ResultsFit (s : State) : Prop := s.root.toNat < 2 ^ 64 ∧ s.rem.toNat ≤ 2 * (2 ^ 64 - 1)

/-- A clean-entry state (R283): IDLE, not halted, no command in flight. -/
def State.CleanEntry (s : State) : Prop :=
  s.engine = .idle ∧ s.status.halted = false ∧ s.status.busy = false

/-- The run has ended (R291): the host program has performed its last operation and no command is in flight. -/
abbrev State.RunOver (s : State) : Prop := s.hostOps = [] ∧ s.engine ≠ .busy

/-- STATUS.HALTED = 1: a run that ends so is a faulted run (R291). -/
abbrev State.Faulted (s : State) : Prop := s.status.halted = true

/-- A final state, one that can satisfy a claim (R291): the run has ended, and not in a fault. -/
abbrev State.Final (s : State) : Prop := s.RunOver ∧ ¬s.Faulted

/-- What has become of a run after some steps (R291). -/
inductive RunVerdict where
  /-- the run goes on: the host has more to do, or a command is in flight -/
  | running (t : State)
  /-- the run has ended in a final state -/
  | final (t : State)
  /-- a faulted run: it has ended with STATUS.HALTED = 1 -/
  | faulted (t : State)
  /-- a faulted run: it raised one of the model faults of R262 -/
  | modelFault (f : Fault)
  /-- the host is stuck before an access that is not admitted (R54) -/
  | stuck
  /-- a command without a meaning; there is none -/
  | refused (r : Refusal)
  deriving DecidableEq, Repr

/-- The verdict on a state a run has reached (R291). -/
def verdictOf (t : State) : RunVerdict :=
  if t.RunOver then (if t.Faulted then .faulted t else .final t) else .running t

/-- The verdict on a run that has stopped with f: a stuck host (R54) or a model fault (R262). -/
def verdictOfFault (f : Fault) : RunVerdict := if f = .inadmissibleAccess then .stuck else .modelFault f

/-- The verdict on the first k steps of a run (R291). -/
def runVerdict (k : Nat) (s : State) : RunVerdict :=
  match Host.Core.run core k s with
  | .next t => verdictOf t
  | .fault f => verdictOfFault f
  | .refused r => .refused r

/-- t is the final state of the run launched from s (R283, R291). -/
def State.RunsTo (s t : State) : Prop := s.CleanEntry ∧ ∃ k, runVerdict k s = .final t

/-- The run launched from s is a faulted run (R291); no final state is reached then. -/
def State.RunFaults (s : State) : Prop :=
  s.CleanEntry ∧ ∃ k, (∃ t, runVerdict k s = .faulted t) ∨ ∃ f, runVerdict k s = .modelFault f

/-- The run launched from s never ends (R291): a hang, such as a poll for DONE after a PROTOCOL fault. -/
def State.Hangs (s : State) : Prop := s.CleanEntry ∧ ∀ k, ∃ t, runVerdict k s = .running t

/-- What a host can observe at the end of a run (R291): the words its reads would return. -/
def State.observed (s : State) : List (Option Word32) :=
  (List.range 15).map (fun k => memRead (4 * k) s)

/-- Two registers agree on every word whose written-flag is true. -/
def agreeOn (written : WordFlags) (a b : Reg128) : Prop :=
  ∀ k : Fin 4, written.get k = true → getWord a k = getWord b k

/-- Two states differ at most in what the spec gives no value: unwritten words of OPND, ROOT, REM and of a latched
operand, and the latch when no command is in flight (R39, R57, R281). -/
structure State.SameDefined (s t : State) : Prop where
  opndWritten : s.opndWritten = t.opndWritten
  rootWritten : s.rootWritten = t.rootWritten
  remWritten  : s.remWritten = t.remWritten
  opnd        : agreeOn s.opndWritten s.opnd t.opnd
  root        : agreeOn s.rootWritten s.root t.root
  rem         : agreeOn s.remWritten s.rem t.rem
  status      : s.status = t.status
  fcmd        : s.fcmd = t.fcmd
  engine      : s.engine = t.engine
  latch       : s.engine = .busy → s.lcmd = t.lcmd ∧ s.lopndWritten = t.lopndWritten ∧
                  agreeOn s.lopndWritten s.lopnd t.lopnd
  hostOps     : s.hostOps = t.hostOps
  hostReads   : s.hostReads = t.hostReads
  turns       : s.turns = t.turns

/-- Two outcomes differ at most in what the spec gives no value. -/
def SameOutcome : Host.Outcome State Fault Refusal → Host.Outcome State Fault Refusal → Prop
  | .next s, .next t => s.SameDefined t
  | .fault a, .fault b => a = b
  | .refused a, .refused b => a = b
  | _, _ => False

end Machine

end Sys2Proof
end

