-- ==== Sys2Proof/Certificates/Slice0/Obligations.lean ====
section
/-! DEFINITION. The statements for the provers. Each docstring names the rule of spec/ it formalises. -/

namespace Sys2Proof.Claims

open Sys2Proof.Machine

/-- The operand widths (R2). -/
def widths : List Nat := [8, 16, 32, 64, 128]

/-- ISQRT.U<W>.BIN with their widths. -/
def binCommands : List (Instr × Nat) :=
  [(.isqrtU8Bin, 8), (.isqrtU16Bin, 16), (.isqrtU32Bin, 32), (.isqrtU64Bin, 64), (.isqrtU128Bin, 128)]

/-- ISQRT.U<W>.FP with their widths. -/
def fpCommands : List (Instr × Nat) :=
  [(.isqrtU8Fp, 8), (.isqrtU16Fp, 16), (.isqrtU32Fp, 32), (.isqrtU64Fp, 64), (.isqrtU128Fp, 128)]

/-- ISQRT.U<W>.KAR with their widths. -/
def karCommands : List (Instr × Nat) :=
  [(.isqrtU8Kar, 8), (.isqrtU16Kar, 16), (.isqrtU32Kar, 32), (.isqrtU64Kar, 64), (.isqrtU128Kar, 128)]

/-- ISQRTREM.U<W>.KAR with their widths. -/
def remCommands : List (Instr × Nat) :=
  [(.isqrtremU8Kar, 8), (.isqrtremU16Kar, 16), (.isqrtremU32Kar, 32), (.isqrtremU64Kar, 64), (.isqrtremU128Kar, 128)]

/-- CHKSQRT.I<W>.<E> with their widths. -/
def checkedCommands : List (Instr × Nat) :=
  [(.chksqrtI8Bin, 8), (.chksqrtI16Bin, 16), (.chksqrtI32Bin, 32), (.chksqrtI64Bin, 64), (.chksqrtI128Bin, 128),
   (.chksqrtI8Fp, 8), (.chksqrtI16Fp, 16), (.chksqrtI32Fp, 32), (.chksqrtI64Fp, 64), (.chksqrtI128Fp, 128),
   (.chksqrtI8Kar, 8), (.chksqrtI16Kar, 16), (.chksqrtI32Kar, 32), (.chksqrtI64Kar, 64), (.chksqrtI128Kar, 128)]

/-- ISQRT.I<W>.<E> with their widths. -/
def fatalCommands : List (Instr × Nat) :=
  [(.isqrtI8Bin, 8), (.isqrtI16Bin, 16), (.isqrtI32Bin, 32), (.isqrtI64Bin, 64), (.isqrtI128Bin, 128),
   (.isqrtI8Fp, 8), (.isqrtI16Fp, 16), (.isqrtI32Fp, 32), (.isqrtI64Fp, 64), (.isqrtI128Fp, 128),
   (.isqrtI8Kar, 8), (.isqrtI16Kar, 16), (.isqrtI32Kar, 32), (.isqrtI64Kar, 64), (.isqrtI128Kar, 128)]

/-- Every OPND word a command of width w reads was written when it was latched: the words k with 32k < w (R95). -/
def WordsWritten (w : Nat) (flags : WordFlags) : Prop :=
  ∀ k : Fin 4, 32 * k.val < w → flags.get k = true

/-- The unsigned operand of width w: LOPND[w-1:0] (R87). -/
def operandOf (w : Nat) (s : State) : Nat := s.lopnd.toNat % 2 ^ w

/-- A signed operand of width w is negative: LOPND[w-1] = 1 (R204). -/
def Negative (w : Nat) (s : State) : Prop := s.lopnd.getLsbD (w - 1) = true

/-- The state after a command that completes with root r: ROOT and its four flags, DONE, ABSENT and BUSY, the engine
state, and nothing else (R96). -/
def completedRoot (r : Nat) (s : State) : State :=
  { s with root := BitVec.ofNat 128 r, rootWritten := allWritten,
           status := { s.status with busy := false, done := true, absent := false }, engine := .idle }

/-- The state after a fault: STATUS, the engine state and FCMD, and nothing else (R256). -/
def faulted (c : Cause) (w : Word32) (s : State) : State :=
  { s with engine := .halted, fcmd := w,
           status := { busy := false, done := false, absent := false, halted := true, cause := c } }

/-- A half-width pair function that meets its contract on normalised values below 2^h (R145, R161 step 4). -/
def PairContract (h : Nat) (halfRem : Nat → Nat × Nat) : Prop :=
  ∀ x, 2 ^ (h - 2) ≤ x → x < 2 ^ h →
    IsRoot x (halfRem x).1 ∧ (halfRem x).2 = x - (halfRem x).1 * (halfRem x).1

/-- The rational value of a binary64 datum (R140; the form is PRESUMED, log entry 12). -/
def f64Value (f : F64) : ℚ := f.sig * 2 ^ f.exp

/-- The engine moves in this step: a command is in flight, and the host has nothing to do or the schedule names the
engine (R20). -/
def EngineMoves (s : State) : Prop :=
  s.engine = .busy ∧ (s.hostOps = [] ∨ s.turns = [] ∨ ∃ rest, s.turns = .engine :: rest)

/-- The host may move in this step: no command is in flight, or the schedule names the host (R20). -/
def HostMoves (s : State) : Prop := s.engine ≠ .busy ∨ ∃ rest, s.turns = .host :: rest

/-- A launch from reset whose host writes OPND0, issues ISQRT.U128.BIN and, before the engine moves, ISQRT.U8.FP, as in run
(b) of program P5, and then polls for DONE (R291). -/
def unwaitedPoll : State :=
  { State.reset with
    hostOps := opSw 0x00 7#32 ++ opIssue 0x00000004#32 ++ opIssue 0x00000010#32 ++ opPollDone,
    turns := [.host, .host, .host] }

end Sys2Proof.Claims

open Sys2Proof Sys2Proof.Machine Sys2Proof.Claims

/-! ### Encoding -/

/-- Command words written out from R80 and the legality table of 95_test_vectors.md section 2.1. -/
def Obligations.KnownWordsDecode : Prop :=
  decode 0x00000000#32 = .ok .isqrtU8Bin ∧ decode 0x00000012#32 = .ok .isqrtU32Fp ∧
  decode 0x00000024#32 = .ok .isqrtU128Kar ∧ decode 0x00000124#32 = .ok .isqrtremU128Kar ∧
  decode 0x00000214#32 = .ok .chksqrtI128Fp ∧ decode 0x00000324#32 = .ok .isqrtI128Kar ∧
  decode 0x00000005#32 = .illegal .reservedWid ∧ decode 0x0000000F#32 = .illegal .reservedWid ∧
  decode 0x00000030#32 = .illegal .reservedEng ∧ decode 0x00000400#32 = .illegal .reservedOp ∧
  decode 0x00000100#32 = .illegal .remNeedsKar ∧ decode 0x00000110#32 = .illegal .remNeedsKar ∧
  decode 0x00001000#32 = .illegal .nonzeroRsv ∧ decode 0x80000000#32 = .illegal .nonzeroRsv

/-- Decoding the R89 word of a well-formed command gives the command back (R89, R94). -/
def Obligations.DecodeAfterEncode : Prop :=
  ∀ i : Instr, i.wf = true → decode (encode i) = .ok i

/-- A word that decodes to a command is that command's R89 word: no other word of the 2^32 does (R89, R94). -/
def Obligations.EncodeAfterDecode : Prop :=
  ∀ (c : Word32) (i : Instr), decode c = .ok i → encode i = c

/-- R84: a word decodes exactly when the five conditions of Legal(c) hold, and exactly 50 words do. -/
def Obligations.LegalWordsAreTheFifty : Prop :=
  (∀ c : Word32,
    (c.extractLsb' 12 20 = 0#20 ∧ (c.extractLsb' 0 4).toNat ≤ 4 ∧ (c.extractLsb' 4 4).toNat ≤ 2 ∧
        (c.extractLsb' 8 4).toNat ≤ 3 ∧
        ¬((c.extractLsb' 8 4).toNat = 1 ∧ (c.extractLsb' 4 4).toNat ≠ 2)) ↔
      ∃ i, decode c = .ok i) ∧
  (∀ c : Word32, (∃ i, decode c = .ok i) ↔ c ∈ allInstrs.map encode) ∧
  (allInstrs.map encode).Nodup ∧ (allInstrs.map encode).length = 50

/-- R90: every mnemonic assembles to its own command's word, in capitals and in small letters. -/
def Obligations.MnemonicsAssemble : Prop :=
  ∀ i : Instr, instrOfMnemonic i.mnemonic.toList = some i ∧
    instrOfMnemonic (i.mnemonic.toList.map Char.toLower) = some i

/-! ### The base-case table -/

/-- R110 and R113: entry i is the one pair (s, r) with s*s + r = i and r ≤ 2s, and its bounds. -/
def Obligations.BaseTableEntries : Prop :=
  baseTable.length = 256 ∧
  ∀ i : Byte,
    (tableRead i).1.toNat * (tableRead i).1.toNat + (tableRead i).2.toNat = i.toNat ∧
    (tableRead i).2.toNat ≤ 2 * (tableRead i).1.toNat ∧
    (∀ s r : Nat, s * s + r = i.toNat → r ≤ 2 * s →
      s = (tableRead i).1.toNat ∧ r = (tableRead i).2.toNat) ∧
    IsRoot i.toNat (tableRead i).1.toNat ∧
    (tableRead i).1.toNat ≤ 15 ∧ (tableRead i).2.toNat ≤ 30 ∧
    (1 ≤ i.toNat → 1 ≤ (tableRead i).1.toNat) ∧ (64 ≤ i.toNat → 8 ≤ (tableRead i).1.toNat)

/-! ### The BIN engine -/

/-- R121: with J = even(ilog2 n)/2, the pass with one = 4^j is pass j, and after it res = P_j * 4^j and
op = n - (P_j * 2^j)^2, where P_j = isqrt(n >> 2j). -/
def Obligations.BinLoopInvariant : Prop :=
  ∀ w ∈ widths, ∀ n : BitVec w, 2 ≤ n.toNat → ∀ j ≤ evenDown (ilog2 n.toNat) / 2,
    (binLoop (evenDown (ilog2 n.toNat) / 2 - j) (binStart n)).one.toNat = 4 ^ j ∧
    ∃ p, IsRoot (n.toNat / 4 ^ j) p ∧ (p * 2 ^ j) ^ 2 ≤ n.toNat ∧
      (binLoop (evenDown (ilog2 n.toNat) / 2 + 1 - j) (binStart n)).res.toNat = p * 4 ^ j ∧
      (binLoop (evenDown (ilog2 n.toNat) / 2 + 1 - j) (binStart n)).op.toNat =
        n.toNat - (p * 2 ^ j) ^ 2

/-- R122: the sum res + one of every pass made is at most 5 * 2^(W-4), so it never wraps, and n = 2^W - 1 reaches it. -/
def Obligations.BinSumNeverWraps : Prop :=
  ∀ w ∈ widths,
    (∀ n : BitVec w, 2 ≤ n.toNat → ∀ k, (binLoop k (binStart n)).one ≠ 0#w →
      (binLoop k (binStart n)).res.toNat + (binLoop k (binStart n)).one.toNat ≤ 5 * 2 ^ (w - 4)) ∧
    ∃ k, (binLoop k (binStart (BitVec.allOnes w))).one ≠ 0#w ∧
      (binLoop k (binStart (BitVec.allOnes w))).res.toNat +
        (binLoop k (binStart (BitVec.allOnes w))).one.toNat = 5 * 2 ^ (w - 4)

/-- R129: for n ≥ 2 the loop makes exactly even(ilog2 n)/2 + 1 passes (the weight `one` is 0 from then on, and the root is
in res), at most W/2, and W/2 when n ≥ 2^(W-2); for n < 2 it makes none: the answer is n itself. -/
def Obligations.BinPassCount : Prop :=
  ∀ w ∈ widths, ∀ n : BitVec w,
    (n.toNat < 2 → binIsqrt n = n) ∧
    (2 ≤ n.toNat →
      (∀ k, (binLoop k (binStart n)).one = 0#w ↔ evenDown (ilog2 n.toNat) / 2 + 1 ≤ k) ∧
      binIsqrt n = (binLoop (evenDown (ilog2 n.toNat) / 2 + 1) (binStart n)).res ∧
      evenDown (ilog2 n.toNat) / 2 + 1 ≤ w / 2 ∧
      (2 ^ (w - 2) ≤ n.toNat → evenDown (ilog2 n.toNat) / 2 + 1 = w / 2))

/-- R123: BinIsqrt_W(n) = isqrt(n), and the result is below 2^(W/2). -/
def Obligations.BinEngineComputesIsqrt : Prop :=
  ∀ w ∈ widths, ∀ n : BitVec w,
    IsRoot n.toNat (binIsqrt n).toNat ∧ (binIsqrt n).toNat < 2 ^ (w / 2)

/-! ### The FP engine -/

/-- R140: F64(n) is exact up to 2^53 and 2^64 for 2^64 - 1; it has a 53-bit significand, no other binary64 value is nearer
to n, and where another is as near, its own significand is even. The facts are the model's reading of IEEE 754 (PRESUMED,
log entry 12). -/
def Obligations.ConversionRoundsToNearest : Prop :=
  (∀ n ≤ 2 ^ 53, f64Value (F64.ofNat n) = n ∧ (F64.ofNat n).trunc = n) ∧
  (F64.ofNat (2 ^ 64 - 1)).trunc = 2 ^ 64 ∧ f64Value (F64.ofNat (2 ^ 64 - 1)) = 2 ^ 64 ∧
  ∀ n < 2 ^ 64, (F64.ofNat n).sig < 2 ^ 53 ∧
    ∀ g : F64, g.sig < 2 ^ 53 →
      |(n : ℚ) - f64Value (F64.ofNat n)| ≤ |(n : ℚ) - f64Value g| ∧
      (|(n : ℚ) - f64Value (F64.ofNat n)| = |(n : ℚ) - f64Value g| →
        f64Value g ≠ f64Value (F64.ofNat n) → (F64.ofNat n).sig % 2 = 0)

/-- R146: the candidate is within one of isqrt(n), and equals it for n < 2^52. The binary64 facts are the model's reading
of IEEE 754 (PRESUMED, log entry 12). -/
def Obligations.FpCandidateWithinOne : Prop :=
  ∀ n r, n < 2 ^ 64 → IsRoot n r →
    r ≤ fpCandidate n + 1 ∧ fpCandidate n ≤ r + 1 ∧ (n < 2 ^ 52 → fpCandidate n = r)

/-- R143: for W ≤ 64, FpIsqrtSmall_W(n) = isqrt(n): the candidate lies in isqrt(n) - 1, isqrt(n), isqrt(n) + 1, and one
correction step maps each of the three to isqrt(n). What it says of the candidate rests on the model's binary64 (PRESUMED,
log entry 12). -/
def Obligations.FpSmallComputesIsqrt : Prop :=
  ∀ w ∈ [8, 16, 32, 64], ∀ n < 2 ^ w,
    IsRoot n (fpIsqrtSmall w n) ∧
    ∀ r, IsRoot n r →
      (fpCandidate n + 1 = r ∨ fpCandidate n = r ∨ fpCandidate n = r + 1) ∧
      ∀ c, c + 1 = r ∨ c = r ∨ c = r + 1 → fpCorrect w n c = r

/-! ### The KAR engine -/

/-- R161's postcondition: over any half-width pair function that meets its contract, KarStep_W of a normalised m is
(isqrt(m), m - s*s) with remainder at most 2s. -/
def Obligations.KarStepPostcondition : Prop :=
  ∀ w ∈ [16, 32, 64, 128], ∀ halfRem, PairContract (w / 2) halfRem →
    ∀ m, 2 ^ (w - 2) ≤ m → m < 2 ^ w →
      IsRoot m (karStep w m halfRem).1 ∧
      (karStep w m halfRem).2 = m - (karStep w m halfRem).1 * (karStep w m halfRem).1 ∧
      (karStep w m halfRem).2 ≤ 2 * (karStep w m halfRem).1

/-- R162: with h = W/2 and Q = W/4, every intermediate value of the model's Karatsuba step of a normalised m stays in its
range (and so, by R168, the divisor is not 0); q = 2^Q occurs; and in the borrow branch W-bit arithmetic with wraparound
gives the exact remainder. -/
def Obligations.KarIntermediatesFit : Prop :=
  (∀ w ∈ [16, 32, 64, 128], ∀ halfRem, PairContract (w / 2) halfRem →
    ∀ m, 2 ^ (w - 2) ≤ m → m < 2 ^ w →
      let v := karVars w m halfRem
      let r := (karStep w m halfRem).2
      karStep w m halfRem = karCombine v ∧
      (2 ^ (w / 2 - 2) ≤ v.hi ∧ v.hi < 2 ^ (w / 2)) ∧
      (2 ^ (w / 4 - 1) ≤ v.s1 ∧ v.s1 < 2 ^ (w / 4)) ∧
      (v.r1 ≤ 2 * v.s1 ∧ 2 * v.s1 < 2 ^ (w / 4 + 1)) ∧
      v.num < 2 ^ (w / 2 + 1) ∧
      (2 ^ (w / 4) ≤ v.den ∧ v.den ≤ 2 ^ (w / 4 + 1) - 2) ∧
      v.q ≤ 2 ^ (w / 4) ∧ v.u < v.den ∧ v.s ≤ 2 ^ (w / 2) ∧ v.q * v.q ≤ 2 ^ (w / 2) ∧
      v.t < 2 ^ (w / 2 + 1) ∧
      (r ≤ 2 * (karStep w m halfRem).1 ∧ 2 * (karStep w m halfRem).1 < 2 ^ (w / 2 + 1)) ∧
      (v.t < v.q * v.q →
        ((v.t + 2 ^ w - v.q * v.q) % 2 ^ w + (2 * v.s - 1)) % 2 ^ w = r)) ∧
  (karVars 16 0x5000 tablePair).q = 2 ^ 4

/-- R167: the precondition shift k = even(clz_W(n)) loses no set bit, normalises n, is even, and halves on the root. -/
def Obligations.PreconditionShiftExact : Prop :=
  ∀ w ∈ widths, ∀ n, n ≠ 0 → n < 2 ^ w →
    evenDown (clz w n) % 2 = 0 ∧ n * 2 ^ evenDown (clz w n) < 2 ^ w ∧
    2 ^ (w - 2) ≤ n * 2 ^ evenDown (clz w n) ∧
    ∀ s, IsRoot (n * 2 ^ evenDown (clz w n)) s → IsRoot n (s / 2 ^ (evenDown (clz w n) / 2))

/-- R166: KarIsqrt_W(n) = isqrt(n) below 2^(W/2); KarTop_W keeps the contracts of its half-width functions; and so
FpIsqrt_128(n) = isqrt(n). -/
def Obligations.KarEngineComputesIsqrt : Prop :=
  (∀ l ≤ 4, ∀ n < 2 ^ levelBits l,
    IsRoot n (karIsqrt l n) ∧ karIsqrt l n < 2 ^ (levelBits l / 2)) ∧
  (∀ w ∈ [16, 32, 64, 128], ∀ half halfRem,
    (∀ x < 2 ^ (w / 2), IsRoot x (half x)) → PairContract (w / 2) halfRem →
    ∀ n < 2 ^ w, IsRoot n (karTop w n half halfRem)) ∧
  ∀ n < 2 ^ 128, IsRoot n (fpIsqrt 128 n)

/-! ### The commands -/

/-- R124-R128: ISQRT.U<W>.BIN completes with the root of the unsigned operand, whatever else the state holds, and changes
nothing but ROOT, its flags, STATUS.DONE, ABSENT, BUSY and the engine state. -/
def Obligations.BinCommandsComplete : Prop :=
  ∀ p ∈ binCommands, ∀ s : State, WordsWritten p.2 s.lopndWritten →
    ∃ r, IsRoot (operandOf p.2 s) r ∧ r < 2 ^ (p.2 / 2) ∧ exec p.1 s = .next (completedRoot r s)

/-- R149-R153: the same for ISQRT.U<W>.FP. -/
def Obligations.FpCommandsComplete : Prop :=
  ∀ p ∈ fpCommands, ∀ s : State, WordsWritten p.2 s.lopndWritten →
    ∃ r, IsRoot (operandOf p.2 s) r ∧ r < 2 ^ (p.2 / 2) ∧ exec p.1 s = .next (completedRoot r s)

/-- R170-R174: the same for ISQRT.U<W>.KAR. -/
def Obligations.KarCommandsComplete : Prop :=
  ∀ p ∈ karCommands, ∀ s : State, WordsWritten p.2 s.lopndWritten →
    ∃ r, IsRoot (operandOf p.2 s) r ∧ r < 2 ^ (p.2 / 2) ∧ exec p.1 s = .next (completedRoot r s)

/-- R176-R180: ISQRTREM.U<W>.KAR completes with the root in ROOT and n - r*r in REM. -/
def Obligations.RemCommandsComplete : Prop :=
  ∀ p ∈ remCommands, ∀ s : State, WordsWritten p.2 s.lopndWritten →
    ∃ r, IsRoot (operandOf p.2 s) r ∧ r < 2 ^ (p.2 / 2) ∧
      exec p.1 s = .next { completedRoot r s with
        rem := BitVec.ofNat 128 (operandOf p.2 s - r * r), remWritten := allWritten }

/-- R210-R224, R230-R244: CHKSQRT.I<W>.<E> and ISQRT.I<W>.<E> of a non-negative operand complete with its root. -/
def Obligations.SignedNonNegativeCompletes : Prop :=
  ∀ p ∈ checkedCommands ++ fatalCommands, ∀ s : State, WordsWritten p.2 s.lopndWritten →
    ¬Negative p.2 s →
    ∃ r, IsRoot (operandOf p.2 s) r ∧ r < 2 ^ (p.2 / 2) ∧ exec p.1 s = .next (completedRoot r s)

/-- R201: CHKSQRT.I of a negative operand completes with ROOT = 0, ABSENT = 1 and DONE = 1; REM stays; it is no fault. -/
def Obligations.CheckedNegativeIsAbsent : Prop :=
  ∀ p ∈ checkedCommands, ∀ s : State, WordsWritten p.2 s.lopndWritten → Negative p.2 s →
    exec p.1 s = .next { s with
      root := 0#128, rootWritten := allWritten,
      status := { s.status with busy := false, done := true, absent := true }, engine := .idle }

/-- R202: ISQRT.I of a negative operand takes the DOMAIN fault with the latched word; ROOT and REM keep their values. -/
def Obligations.FatalNegativeFaultsDomain : Prop :=
  ∀ p ∈ fatalCommands, ∀ s : State, WordsWritten p.2 s.lopndWritten → Negative p.2 s →
    exec p.1 s = .next (faulted .domain s.lcmd s)

/-- R251: a command raises DOMAIN exactly when it is an ISQRT.I whose operand is negative; CHKSQRT.I never does. -/
def Obligations.DomainExactlyFatalNegative : Prop :=
  ∀ (i : Instr) (s t : State), exec i s = .next t →
    (t = faulted .domain s.lcmd s ∧ t.engine = .halted ∧ i.shape.op = .isqrtI ∧
        Negative i.shape.width.bits s) ∨
      (t.engine = .idle ∧ t.status.halted = s.status.halted ∧ t.status.cause = s.status.cause ∧
        ¬(i.shape.op = .isqrtI ∧ Negative i.shape.width.bits s))

/-- R95, R262: a legal command with an operand word that was unwritten when latched ends the run, whatever the command. -/
def Obligations.UnwrittenOperandStops : Prop :=
  ∀ (i : Instr) (s : State) (k : Fin 4),
    32 * k.val < i.shape.width.bits → s.lopndWritten.get k = false →
    exec i s = .fault .unwrittenOperand

/-- R9: every root a command returns is isqrt of its operand's value. R10: isqrt of an operand of width W is below 2^(W/2),
at most 15 at W = 8, so the root fits in the low W/2 bits of its result. -/
def Obligations.EveryRootIsIsqrt : Prop :=
  (∀ (i : Instr) (s t : State), exec i s = .next t → t.engine = .idle → t.status.absent = false →
    IsRoot (operandOf i.shape.width.bits s) t.root.toNat ∧
    t.root.toNat < 2 ^ (i.shape.width.bits / 2)) ∧
  (∀ w ∈ widths, ∀ n < 2 ^ w, ∀ r, IsRoot n r → r < 2 ^ (w / 2)) ∧
  ∀ n < 2 ^ 8, ∀ r, IsRoot n r → r ≤ 15

/-- R11: the engine is an internal choice: commands of the same operation and width answer the same in every state. -/
def Obligations.EngineChoiceInvisible : Prop :=
  ∀ (i j : Instr) (s : State), i.shape.op = j.shape.op → i.shape.width = j.shape.width →
    exec i s = exec j s

/-- R12: a command's results are a function of its operation, width, engine and operand alone. -/
def Obligations.ResultsDependOnOperandAlone : Prop :=
  ∀ (i : Instr) (s s' t t' : State),
    operandOf i.shape.width.bits s = operandOf i.shape.width.bits s' →
    exec i s = .next t → exec i s' = .next t' →
    t.engine = t'.engine ∧ t.status.done = t'.status.done ∧ t.status.absent = t'.status.absent ∧
    (t.engine = .halted → t.status = t'.status) ∧
    (t.engine = .idle → t.root = t'.root ∧ (i.shape.op = .isqrtremU → t.rem = t'.rem))

/-- R87, R204: the latched bits above the width are ignored: changing them changes nothing but themselves. -/
def Obligations.UpperOperandBitsIgnored : Prop :=
  ∀ (i : Instr) (s : State) (a : Reg128),
    (∀ k < i.shape.width.bits, a.getLsbD k = s.lopnd.getLsbD k) →
    (∀ t, exec i s = .next t → exec i { s with lopnd := a } = .next { t with lopnd := a }) ∧
    (∀ f, exec i s = .fault f → exec i { s with lopnd := a } = .fault f)

/-- R205: for a non-negative operand CHKSQRT.I and ISQRT.I do what ISQRT.U does on the same bits; for a negative one the
first reports absent and the second raises DOMAIN. -/
def Obligations.SignedAgreesWithUnsigned : Prop :=
  ∀ (u c f : Instr) (s : State),
    u.shape = ⟨.isqrtU, c.shape.width, c.shape.engine⟩ → c.shape.op = .chksqrtI →
    f.shape = ⟨.isqrtI, c.shape.width, c.shape.engine⟩ →
    (¬Negative c.shape.width.bits s → exec c s = exec u s ∧ exec f s = exec u s) ∧
    (Negative c.shape.width.bits s →
      (∀ t, exec c s = .next t → t.status.absent = true ∧ t.root = 0#128) ∧
      (∀ t, exec f s = .next t → t.status.cause = .domain ∧ t.status.halted = true))

/-- R203: the root a signed command writes is at most isqrt(2^(W-1) - 1) and below 2^(W-1), so its bit W-1 is 0; and the
largest signed roots of the five widths. -/
def Obligations.SignedRootFits : Prop :=
  (∀ p ∈ checkedCommands ++ fatalCommands, ∀ s t : State,
    exec p.1 s = .next t → t.engine = .idle →
    t.root.toNat * t.root.toNat ≤ 2 ^ (p.2 - 1) - 1 ∧ t.root.toNat < 2 ^ (p.2 - 1) ∧
    t.root.getLsbD (p.2 - 1) = false) ∧
  IsRoot (2 ^ 7 - 1) 11 ∧ IsRoot (2 ^ 15 - 1) 181 ∧ IsRoot (2 ^ 31 - 1) 46340 ∧
  IsRoot (2 ^ 63 - 1) 3037000499 ∧ IsRoot (2 ^ 127 - 1) 13043817825332782212

/-- The frame of every command (R23, R25, R35, R96, R255, R256): OPND, the latch, the host's fields and every window byte
but those of ROOT, REM, STATUS and FCMD stay; REM stays unless the command is an ISQRTREM; a completed command leaves
HALTED, CAUSE and FCMD; a faulting command leaves ROOT and REM. -/
def Obligations.CommandFrame : Prop :=
  ∀ (i : Instr) (s t : State), exec i s = .next t →
    (t.opnd = s.opnd ∧ t.opndWritten = s.opndWritten ∧ t.lcmd = s.lcmd ∧ t.lopnd = s.lopnd ∧
      t.lopndWritten = s.lopndWritten ∧ t.hostOps = s.hostOps ∧ t.hostReads = s.hostReads ∧
      t.turns = s.turns) ∧
    (i.shape.op ≠ .isqrtremU → t.rem = s.rem ∧ t.remWritten = s.remWritten) ∧
    (t.engine = .idle → t.status.halted = s.status.halted ∧ t.status.cause = s.status.cause ∧
      t.fcmd = s.fcmd) ∧
    (t.engine = .halted → t.root = s.root ∧ t.rootWritten = s.rootWritten ∧ t.rem = s.rem ∧
      t.remWritten = s.remWritten) ∧
    (∀ off, off < 0x10 ∨ (0x30 ≤ off ∧ off < 0x34) ∨ 0x3C ≤ off ∨
        (0x20 ≤ off ∧ off < 0x30 ∧ i.shape.op ≠ .isqrtremU) →
      windowByte off t = windowByte off s)

/-! ### The engine step -/

/-- A step runs the decoded instruction: when the engine moves and the latched word decodes to i, the step is i's meaning
on the state with one turn of the schedule used (R20, R95); that the engine moves where the schedule has run out is the
model's choice (DESIGN CHOICE, log entry 5). And so it is for a word placed by withFetchWord: that operation, which stands
for the host's writes of OPND and CMD, is the model's choice (DESIGN CHOICE, log entry 11). -/
def Obligations.StepRunsDecodedCommand : Prop :=
  (∀ (s : State) (i : Instr), EngineMoves s → decode s.lcmd = .ok i →
    step s = exec i { s with turns := s.turns.tail }) ∧
  ∀ (s : State) (nbits w : Nat) (i : Instr), decodeTableWord nbits w = some i →
    step (s.withFetchWord nbits w) =
      exec i { s.withFetchWord nbits w with turns := (s.withFetchWord nbits w).turns.tail }

/-- R85, R252: an illegal latched word raises ILLEGAL with that word; the operand is not read (so no model fault), and no
result is written. -/
def Obligations.IllegalWordFaults : Prop :=
  ∀ s : State,
    ¬((s.lcmd.extractLsb' 12 20 = 0#20) ∧ (s.lcmd.extractLsb' 0 4).toNat ≤ 4 ∧
      (s.lcmd.extractLsb' 4 4).toNat ≤ 2 ∧ (s.lcmd.extractLsb' 8 4).toNat ≤ 3 ∧
      ¬((s.lcmd.extractLsb' 8 4).toNat = 1 ∧ (s.lcmd.extractLsb' 4 4).toNat ≠ 2)) →
    engineStep s = .next (faulted .illegal s.lcmd s)

/-- R254, items 4 to 6: at the engine step ILLEGAL comes before the unwritten operand, and that before DOMAIN. -/
def Obligations.EngineStepPriority : Prop :=
  ∀ s : State,
    (∀ why, decode s.lcmd = .illegal why → engineStep s = .next (faulted .illegal s.lcmd s)) ∧
    ∀ i, decode s.lcmd = .ok i →
      (¬WordsWritten i.shape.width.bits s.lopndWritten →
        engineStep s = .fault .unwrittenOperand) ∧
      (WordsWritten i.shape.width.bits s.lopndWritten → i.shape.op = .isqrtI →
        Negative i.shape.width.bits s → engineStep s = .next (faulted .domain s.lcmd s)) ∧
      (WordsWritten i.shape.width.bits s.lopndWritten →
        ¬(i.shape.op = .isqrtI ∧ Negative i.shape.width.bits s) →
        ∃ t, engineStep s = .next t ∧ t.engine = .idle ∧ t.status.done = true)

/-- R256: Fault(c, w) is one update of the engine state, STATUS and FCMD, and the STATUS words it leaves. -/
def Obligations.FaultEntry : Prop :=
  (∀ (c : Cause) (w : Word32) (s : State),
    raiseFault c w s = faulted c w s ∧
    (raiseFault c w s).status.word = (c.code.setWidth 32 <<< 4) ||| 8#32) ∧
  ∀ (w : Word32) (s : State),
    (raiseFault .domain w s).status.word = 0x18#32 ∧
    (raiseFault .illegal w s).status.word = 0x28#32 ∧
    (raiseFault .protocol w s).status.word = 0x38#32

/-! ### The host port -/

/-- R55: what a host read of each offset returns (none where R57 comes first: the word's written-flag is false), and that a
read has no side effect on the unit: every later read returns what it would have. -/
def Obligations.WindowReadMap : Prop :=
  ∀ s : State,
    (∀ k : Fin 4,
      memRead (4 * k.val) s =
        (if s.opndWritten.get k then some (s.opnd.extractLsb' (32 * k.val) 32) else none) ∧
      memRead (0x10 + 4 * k.val) s =
        (if s.rootWritten.get k then some (s.root.extractLsb' (32 * k.val) 32) else none) ∧
      memRead (0x20 + 4 * k.val) s =
        (if s.remWritten.get k then some (s.rem.extractLsb' (32 * k.val) 32) else none)) ∧
    memRead 0x30 s = some 0#32 ∧ memRead 0x34 s = some s.status.word ∧
    memRead 0x38 s = some s.fcmd ∧
    (∀ off, 0x3C ≤ off → off % 4 = 0 → memRead off s = some 0#32) ∧
    ∀ (off : Nat) (t : State), performAccess (.read off 4) s = .next t →
      ∃ v, memRead off s = some v ∧ t = { s with hostReads := s.hostReads ++ [v] } ∧
        ∀ off', memRead off' t = memRead off' s

/-- R27, R33: the bits of the STATUS word. -/
def Obligations.StatusWordLayout : Prop :=
  ∀ t : Status,
    t.word.getLsbD 0 = t.busy ∧ t.word.getLsbD 1 = t.done ∧ t.word.getLsbD 2 = t.absent ∧
    t.word.getLsbD 3 = t.halted ∧ t.word.extractLsb' 4 4 = t.cause.code ∧
    t.word.extractLsb' 8 24 = 0#24

/-- R52: the word at offset o + 4k holds bits 32k+31..32k of its register, and byte j of a word its bits 8j+7..8j: so the
window byte at o + 4k + j is bits 32k+8j+7..32k+8j of the register. -/
def Obligations.LittleEndianWindow : Prop :=
  ∀ (s : State) (k j : Fin 4),
    (s.opndWritten.get k = true →
      windowByte (4 * k.val + j.val) s = some (s.opnd.extractLsb' (32 * k.val + 8 * j.val) 8)) ∧
    (s.rootWritten.get k = true →
      windowByte (0x10 + 4 * k.val + j.val) s =
        some (s.root.extractLsb' (32 * k.val + 8 * j.val) 8)) ∧
    (s.remWritten.get k = true →
      windowByte (0x20 + 4 * k.val + j.val) s = some (s.rem.extractLsb' (32 * k.val + 8 * j.val) 8))

/-- R56: a host write while HALTED is ignored; otherwise it stores one OPND word and sets its flag, and nothing else, and
storing it twice is storing it once; at CMD it is a command write, which is not idempotent; every read-only and reserved
offset ignores it. -/
def Obligations.WindowWriteMap : Prop :=
  (∀ (s : State) (off : Nat) (v : Word32), s.status.halted = true → memWrite off v s = s) ∧
  ∀ (s : State) (v : Word32), s.status.halted = false →
    memWrite 0x30 v s = commandWrite v s ∧
    (∀ k : Fin 4,
      getWord (memWrite (4 * k.val) v s).opnd k = v ∧
      (memWrite (4 * k.val) v s).opndWritten.get k = true ∧
      (∀ j : Fin 4, j ≠ k →
        getWord (memWrite (4 * k.val) v s).opnd j = getWord s.opnd j ∧
        (memWrite (4 * k.val) v s).opndWritten.get j = s.opndWritten.get j) ∧
      { memWrite (4 * k.val) v s with opnd := s.opnd, opndWritten := s.opndWritten } = s ∧
      memWrite (4 * k.val) v (memWrite (4 * k.val) v s) = memWrite (4 * k.val) v s) ∧
    (∀ off, 0x10 ≤ off → off ≠ 0x30 → memWrite off v s = s) ∧
    (s.engine = .idle → memWrite 0x30 v (memWrite 0x30 v s) ≠ memWrite 0x30 v s)

/-- R93: a CMD write raises PROTOCOL with the written word while a command is in flight, and otherwise latches the word and
OPND with its flags and makes the unit BUSY, undecoded; ABSENT, ROOT and REM stay. -/
def Obligations.CommandWriteEffect : Prop :=
  ∀ (s : State) (v : Word32), s.status.halted = false →
    (s.engine = .busy → memWrite 0x30 v s = faulted .protocol v s) ∧
    (s.engine ≠ .busy → memWrite 0x30 v s = { s with
      lcmd := v, lopnd := s.opnd, lopndWritten := s.opndWritten, engine := .busy,
      status := { s.status with busy := true, done := false } })

/-- R253: a CMD write while BUSY is the fault PROTOCOL with the new word, taken in the host's own step. The in-flight command
is abandoned: after no number of further steps has the engine left HALTED, and ROOT, REM and FCMD keep their values. -/
def Obligations.ProtocolAbandonsCommand : Prop :=
  ∀ (s : State) (v : Word32), s.status.halted = false → s.engine = .busy →
    memWrite 0x30 v s = faulted .protocol v s ∧
    (∀ (k : Nat) (t : State), Host.Core.run core k (memWrite 0x30 v s) = .next t →
      t.engine = .halted ∧ t.root = s.root ∧ t.rem = s.rem ∧ t.rootWritten = s.rootWritten ∧
      t.remWritten = s.remWritten ∧ t.fcmd = v)

/-- R20, R55, R56, R59: when the host moves, an admitted access is its whole step: the access is consumed in order, a read
delivers its word and changes nothing else, a write is MemWrite. -/
def Obligations.HostAccessIsOneStep : Prop :=
  ∀ (s : State) (off : Nat) (v : Word32) (rest : List HostOp),
    HostMoves s → off % 4 = 0 → off + 4 ≤ 256 →
    (s.hostOps = .access (.write off 4 v) :: rest →
      step s = .next (memWrite off v { s with hostOps := rest, turns := s.turns.tail })) ∧
    (s.hostOps = .access (.read off 4) :: rest → memRead off s = some v →
      step s = .next { s with
        hostOps := rest, turns := s.turns.tail, hostReads := s.hostReads ++ [v] })

/-- R57: a host read of a word whose written-flag is false ends the run in UnwrittenRead. -/
def Obligations.UnwrittenReadStops : Prop :=
  ∀ (s : State) (k : Fin 4) (rest : List HostOp), HostMoves s →
    (s.opndWritten.get k = false → s.hostOps = .access (.read (4 * k.val) 4) :: rest →
      step s = .fault .unwrittenRead) ∧
    (s.rootWritten.get k = false → s.hostOps = .access (.read (0x10 + 4 * k.val) 4) :: rest →
      step s = .fault .unwrittenRead) ∧
    (s.remWritten.get k = false → s.hostOps = .access (.read (0x20 + 4 * k.val) 4) :: rest →
      step s = .fault .unwrittenRead)

/-- R54: an access of another size, at a misaligned offset, below the window's start or past its end, made once or in a poll
loop, has no step. That the engine still moves then, and that the machine ends in the fault inadmissibleAccess when it
cannot, is the model's (DEDUCED, log entry 7), and so is a poll loop as one operation (DESIGN CHOICE, log entry 16). A word access at a reserved offset is admitted, reads 0, and its write is ignored. -/
def Obligations.InadmissibleAccessIsStuck : Prop :=
  (∀ (s : State) (op : HostOp) (a : HostAccess) (rest : List HostOp),
    s.hostOps = op :: rest →
      op = .access a ∨ (∃ off mask want, op = .poll off mask want ∧ a = .read off 4) →
      a.size ≠ 4 ∨ a.offset % 4 ≠ 0 ∨ a.offset < 0 ∨ 256 < a.offset + a.size →
    (s.engine = .busy → step s = engineStep { s with turns := s.turns.tail }) ∧
    (s.engine ≠ .busy → step s = .fault .inadmissibleAccess)) ∧
  ∀ (s : State) (off : Nat) (v : Word32), 0x3C ≤ off → off ≤ 0xFC → off % 4 = 0 →
    (HostAccess.read off 4).admitted = true ∧ (HostAccess.write off 4 v).admitted = true ∧
    memRead off s = some 0#32 ∧ memWrite off v s = s

/-- R7: BASE is a multiple of 256, and the window is the 256 addresses from BASE on; R54: a word access at an address is
admitted exactly when it is aligned and lies whole in the window. That accesses name offsets from BASE, negative below it,
is the model's choice (DESIGN CHOICE, log entry 8). -/
def Obligations.WindowStandsAtBase : Prop :=
  Config.base % 256 = 0 ∧
  (∀ off < 256, windowOffset (Config.base + off) = off) ∧
  (∀ addr, addr < Config.base ∨ Config.base + 256 ≤ addr →
    windowOffset addr < 0 ∨ 256 ≤ windowOffset addr) ∧
  ∀ (addr : Nat) (v : Word32),
    ((HostAccess.read (windowOffset addr) 4).admitted = true ↔
      Config.base ≤ addr ∧ addr + 4 ≤ Config.base + 256 ∧ addr % 4 = 0) ∧
    ((HostAccess.write (windowOffset addr) 4 v).admitted = true ↔
      Config.base ≤ addr ∧ addr + 4 ≤ Config.base + 256 ∧ addr % 4 = 0)

/-! ### The whole machine -/

/-- R280, R281, R283: reset leaves the unit IDLE with STATUS and FCMD 0 and all written-flags false, from any state, and the
machine starts there in a clean-entry state. That a reset keeps what the host has left to do is the model's choice
(DESIGN CHOICE, log entry 22). -/
def Obligations.ResetLeaves : Prop :=
  (∀ s : State,
    (resetBlock s).engine = .idle ∧ (resetBlock s).status.word = 0#32 ∧ (resetBlock s).fcmd = 0#32 ∧
    (resetBlock s).opndWritten = noneWritten ∧ (resetBlock s).rootWritten = noneWritten ∧
    (resetBlock s).remWritten = noneWritten ∧ (resetBlock s).hostOps = s.hostOps) ∧
  State.reset.engine = .idle ∧ State.reset.status.word = 0#32 ∧ State.reset.fcmd = 0#32 ∧
  State.reset.opndWritten = noneWritten ∧ State.reset.rootWritten = noneWritten ∧
  State.reset.remWritten = noneWritten ∧ State.reset.CleanEntry

/-- The invariants of the machine hold at reset; the bounds on ROOT and REM rest there on the zeros the model chose for them
(DESIGN CHOICE, log entry 1). -/
def Obligations.ConsistentAtReset : Prop :=
  State.reset.Consistent ∧ State.reset.ResultsFit

/-- R28, R29, R31, R32, R34: the promises of 10_state.md about STATUS, the engine state, FCMD and the written-flags are
kept by every step, from every state that meets them. -/
def Obligations.StepKeepsConsistent : Prop :=
  ∀ s t : State, s.Consistent → step s = .next t → t.Consistent

/-- R10, R24, R25: ROOT stays below 2^64 and REM at most twice the largest root, by every step. -/
def Obligations.StepKeepsResultsFit : Prop :=
  ∀ s t : State, s.ResultsFit → step s = .next t → t.ResultsFit

/-- R36: the transitions of the engine state. -/
def Obligations.EngineTransitions : Prop :=
  (∀ s t : State, s.Consistent → step s = .next t →
    (s.engine = .idle → t.engine = .idle ∨
      (t.engine = .busy ∧ ∃ v rest, s.hostOps = .access (.write 0x30 4 v) :: rest)) ∧
    (s.engine = .busy → t.engine = .busy ∨
      (t.engine = .idle ∧ t.status.done = true) ∨
      (t.engine = .halted ∧ (t.status.cause = .illegal ∨ t.status.cause = .domain)) ∨
      (t.engine = .halted ∧ t.status.cause = .protocol ∧
        ∃ v rest, s.hostOps = .access (.write 0x30 4 v) :: rest)) ∧
    (s.engine = .halted → t.engine = .halted)) ∧
  ∀ s : State, (resetBlock s).engine = .idle

/-- R259, and of R258 and R280 that reset leaves HALTED: while HALTED = 1 host writes are ignored, no engine step is enabled, and
no step changes STATUS, FCMD, ROOT, REM, OPND or their flags; and what reads show after a fault. R291: a run is in a final
state exactly when it has ended unhalted, it is a faulted run when it has ended halted or raised a model fault, a run that
has halted never comes to a final state, and a host that polls for DONE after a fault, such as the one that issues a second
command without waiting, hangs. That a run over stays as it is (DESIGN CHOICE, log entry 6), that a stuck host is no model
fault (DEDUCED, log entry 7) and that a poll loop is one operation of the host (DESIGN CHOICE, log entry 16) is the
model's. -/
def Obligations.HaltedIsFinal : Prop :=
  (∀ s : State, s.Consistent → s.status.halted = true →
    (∀ off v, memWrite off v s = s) ∧ nextAgent s ≠ some .engine ∧
    ∀ t, step s = .next t →
      t.status = s.status ∧ t.engine = .halted ∧ t.fcmd = s.fcmd ∧ t.root = s.root ∧ t.rem = s.rem ∧
      t.opnd = s.opnd ∧ t.opndWritten = s.opndWritten ∧ t.rootWritten = s.rootWritten ∧
      t.remWritten = s.remWritten) ∧
  (∀ (c : Cause) (w : Word32) (s : State),
    (∀ off < 0x30, memRead off (faulted c w s) = memRead off s) ∧
    memRead 0x34 (faulted c w s) = some ((c.code.setWidth 32 <<< 4) ||| 8#32) ∧
    memRead 0x38 (faulted c w s) = some w) ∧
  (∀ s : State, (resetBlock s).status.halted = false) ∧
  (∀ (k : Nat) (s t : State),
    (runVerdict k s = .final t ↔
      Host.Core.run core k s = .next t ∧ t.hostOps = [] ∧ t.engine ≠ .busy ∧ t.status.halted = false) ∧
    (runVerdict k s = .faulted t ↔
      Host.Core.run core k s = .next t ∧ t.hostOps = [] ∧ t.engine ≠ .busy ∧ t.status.halted = true)) ∧
  (∀ (k : Nat) (s : State) (f : Fault), f ≠ .inadmissibleAccess →
    (runVerdict k s = .modelFault f ↔ Host.Core.run core k s = .fault f)) ∧
  (∀ (k : Nat) (s t : State), s.Consistent → s.status.halted = true → runVerdict k s ≠ .final t) ∧
  (∀ (k : Nat) (s : State) (rest : List HostOp), s.Consistent → s.status.halted = true →
    s.hostOps = opPollDone ++ rest → ∃ t, runVerdict k s = .running t) ∧
  unwaitedPoll.Hangs

/-- R20, R284: where both agents can move, both orders are steps: the schedule alone decides. That plain data in the
state decides is the model's form of the free interleaving (DESIGN CHOICE, log entry 5). -/
def Obligations.BothOrdersPossible : Prop :=
  ∀ (s : State) (op : HostOp) (rest : List HostOp) (ts : List Agent),
    s.engine = .busy → s.hostOps = op :: rest → op.wf = true →
    step { s with turns := .host :: ts } = hostStep { s with turns := ts } ∧
    step { s with turns := .engine :: ts } = engineStep { s with turns := ts }

/-- R286, R60: a host write to OPND while BUSY does not affect the command in flight: it commutes with the engine step. -/
def Obligations.OpndWriteCommutesWithEngine : Prop :=
  ∀ (s : State) (k : Fin 4) (v : Word32),
    (∀ t, engineStep s = .next t →
      engineStep (writeOpnd k v s) = .next (writeOpnd k v t)) ∧
    (∀ f, engineStep s = .fault f → engineStep (writeOpnd k v s) = .fault f)

/-- R61: with no command in flight, a step that is not a CMD write leaves ROOT, REM, their flags and STATUS: results once
seen complete stay visible until the host writes CMD again. -/
def Obligations.ResultsStayVisible : Prop :=
  ∀ s t : State, s.Consistent → s.status.busy = false → step s = .next t →
    (∀ v rest, s.hostOps ≠ .access (.write 0x30 4 v) :: rest) →
    t.root = s.root ∧ t.rem = s.rem ∧ t.rootWritten = s.rootWritten ∧ t.remWritten = s.remWritten ∧
    t.status = s.status

/-- R289: a wait that begins while BUSY ends, with BUSY = 0 and either DONE = 1 or HALTED = 1, once the schedule has run
out at the latest, unless the command in flight ends the run in a model fault. That the engine moves once the
schedule has run out is the model's form of fairness (DESIGN CHOICE, log entry 5). -/
def Obligations.WaitEnds : Prop :=
  ∀ (s : State) (rest : List HostOp), s.Consistent → s.engine = .busy → s.hostOps = .wait :: rest →
    (∀ i, decode s.lcmd = .ok i → WordsWritten i.shape.width.bits s.lopndWritten) →
    ∃ (k : Nat) (t : State), k ≤ s.turns.length + 2 ∧ Host.Core.run core k s = .next t ∧
      t.hostOps = rest ∧ t.status.busy = false ∧ (t.status.done = true ∨ t.status.halted = true)

/-- R39, R57, R281: what the spec gives no value cannot be seen: states that differ only in unwritten words, or in a latch
that holds no command in flight, step to outcomes that differ only so. The values the model names at reset (DESIGN
CHOICE, log entry 1) therefore decide nothing. -/
def Obligations.UnwrittenContentsInvisible : Prop :=
  ∀ s t : State, s.SameDefined t → SameOutcome (step s) (step t)

/-- R140: fsqrt(f) has a 53-bit significand and is the one binary64 value nearest to the real square root of f (no other is
as near, so ties-to-even never decides), and 0 for f = 0; ftrunc(f) is the largest natural at most f. The form of a
binary64 value is the model's reading of IEEE 754 (PRESUMED, log entry 12). -/
def Obligations.SquareRootCorrectlyRounded : Prop :=
  (∀ f : F64, f.sig < 2 ^ 53 → f.sqrt.sig < 2 ^ 53 ∧
    ∀ g : F64, g.sig < 2 ^ 53 → f64Value g ≠ f64Value f.sqrt →
      |Real.sqrt (f64Value f) - f64Value f.sqrt| < |Real.sqrt (f64Value f) - f64Value g|) ∧
  (∀ e : Int, f64Value (F64.sqrt ⟨0, e⟩) = 0) ∧
  ∀ f : F64, (f.trunc : ℚ) ≤ f64Value f ∧ f64Value f < f.trunc + 1

/-- R91: one step of the host's wait: it reads STATUS, appends it to the answers, and is over exactly when bit 0 (BUSY) was 0;
and one step of a poll loop of the host's own, over exactly when the bits under its mask are the wanted ones, and ending the run
in UnwrittenRead when its word has no defined value, as any read of it does (R57). That each is one operation of the host is
the model's choice (DESIGN CHOICE, log entry 16). -/
def Obligations.WaitPollsOnce : Prop :=
  (∀ (s : State) (rest : List HostOp), HostMoves s → s.hostOps = .wait :: rest →
    (s.status.busy = false → step s = .next { s with
      hostOps := rest, turns := s.turns.tail, hostReads := s.hostReads ++ [s.status.word] }) ∧
    (s.status.busy = true → step s = .next { s with
      turns := s.turns.tail, hostReads := s.hostReads ++ [s.status.word] })) ∧
  ∀ (s : State) (rest : List HostOp) (off : Nat) (mask want : Word32), HostMoves s →
    off % 4 = 0 → off + 4 ≤ 256 → s.hostOps = .poll off mask want :: rest →
    (memRead off s = none → step s = .fault .unwrittenRead) ∧
    ∀ v, memRead off s = some v →
      (v &&& mask = want → step s = .next { s with
        hostOps := rest, turns := s.turns.tail, hostReads := s.hostReads ++ [v] }) ∧
      (v &&& mask ≠ want → step s = .next { s with
        turns := s.turns.tail, hostReads := s.hostReads ++ [v] })
end

