-- ==== Sys2Proof/Laws/State.lean ====
section
/-! SUPPORT. What each update of the state does to each field, one lemma per field and update, so that no proof unfolds
a record update. -/

namespace Sys2Proof.Machine

@[simp] theorem raiseFault_opnd (c : Cause) (w : Word32) (s : State) :
    (raiseFault c w s).opnd = s.opnd := rfl
@[simp] theorem raiseFault_root (c : Cause) (w : Word32) (s : State) :
    (raiseFault c w s).root = s.root := rfl
@[simp] theorem raiseFault_rem (c : Cause) (w : Word32) (s : State) :
    (raiseFault c w s).rem = s.rem := rfl
@[simp] theorem raiseFault_opndWritten (c : Cause) (w : Word32) (s : State) :
    (raiseFault c w s).opndWritten = s.opndWritten := rfl
@[simp] theorem raiseFault_rootWritten (c : Cause) (w : Word32) (s : State) :
    (raiseFault c w s).rootWritten = s.rootWritten := rfl
@[simp] theorem raiseFault_remWritten (c : Cause) (w : Word32) (s : State) :
    (raiseFault c w s).remWritten = s.remWritten := rfl
@[simp] theorem raiseFault_status (c : Cause) (w : Word32) (s : State) :
    (raiseFault c w s).status = s.status.fail c := rfl
@[simp] theorem raiseFault_fcmd (c : Cause) (w : Word32) (s : State) :
    (raiseFault c w s).fcmd = w := rfl
@[simp] theorem raiseFault_lcmd (c : Cause) (w : Word32) (s : State) :
    (raiseFault c w s).lcmd = s.lcmd := rfl
@[simp] theorem raiseFault_lopnd (c : Cause) (w : Word32) (s : State) :
    (raiseFault c w s).lopnd = s.lopnd := rfl
@[simp] theorem raiseFault_lopndWritten (c : Cause) (w : Word32) (s : State) :
    (raiseFault c w s).lopndWritten = s.lopndWritten := rfl
@[simp] theorem raiseFault_engine (c : Cause) (w : Word32) (s : State) :
    (raiseFault c w s).engine = .halted := rfl
@[simp] theorem raiseFault_hostOps (c : Cause) (w : Word32) (s : State) :
    (raiseFault c w s).hostOps = s.hostOps := rfl
@[simp] theorem raiseFault_hostReads (c : Cause) (w : Word32) (s : State) :
    (raiseFault c w s).hostReads = s.hostReads := rfl
@[simp] theorem raiseFault_turns (c : Cause) (w : Word32) (s : State) :
    (raiseFault c w s).turns = s.turns := rfl

@[simp] theorem latchCommand_opnd (v : Word32) (s : State) :
    (latchCommand v s).opnd = s.opnd := rfl
@[simp] theorem latchCommand_root (v : Word32) (s : State) :
    (latchCommand v s).root = s.root := rfl
@[simp] theorem latchCommand_rem (v : Word32) (s : State) :
    (latchCommand v s).rem = s.rem := rfl
@[simp] theorem latchCommand_opndWritten (v : Word32) (s : State) :
    (latchCommand v s).opndWritten = s.opndWritten := rfl
@[simp] theorem latchCommand_rootWritten (v : Word32) (s : State) :
    (latchCommand v s).rootWritten = s.rootWritten := rfl
@[simp] theorem latchCommand_remWritten (v : Word32) (s : State) :
    (latchCommand v s).remWritten = s.remWritten := rfl
@[simp] theorem latchCommand_status (v : Word32) (s : State) :
    (latchCommand v s).status = s.status.accept := rfl
@[simp] theorem latchCommand_fcmd (v : Word32) (s : State) :
    (latchCommand v s).fcmd = s.fcmd := rfl
@[simp] theorem latchCommand_lcmd (v : Word32) (s : State) :
    (latchCommand v s).lcmd = v := rfl
@[simp] theorem latchCommand_lopnd (v : Word32) (s : State) :
    (latchCommand v s).lopnd = s.opnd := rfl
@[simp] theorem latchCommand_lopndWritten (v : Word32) (s : State) :
    (latchCommand v s).lopndWritten = s.opndWritten := rfl
@[simp] theorem latchCommand_engine (v : Word32) (s : State) :
    (latchCommand v s).engine = .busy := rfl
@[simp] theorem latchCommand_hostOps (v : Word32) (s : State) :
    (latchCommand v s).hostOps = s.hostOps := rfl
@[simp] theorem latchCommand_hostReads (v : Word32) (s : State) :
    (latchCommand v s).hostReads = s.hostReads := rfl
@[simp] theorem latchCommand_turns (v : Word32) (s : State) :
    (latchCommand v s).turns = s.turns := rfl

@[simp] theorem writeOpnd_opnd (k : Fin 4) (v : Word32) (s : State) :
    (writeOpnd k v s).opnd = setWord s.opnd k v := rfl
@[simp] theorem writeOpnd_root (k : Fin 4) (v : Word32) (s : State) :
    (writeOpnd k v s).root = s.root := rfl
@[simp] theorem writeOpnd_rem (k : Fin 4) (v : Word32) (s : State) :
    (writeOpnd k v s).rem = s.rem := rfl
@[simp] theorem writeOpnd_opndWritten (k : Fin 4) (v : Word32) (s : State) :
    (writeOpnd k v s).opndWritten = s.opndWritten.set k.val true k.isLt := rfl
@[simp] theorem writeOpnd_rootWritten (k : Fin 4) (v : Word32) (s : State) :
    (writeOpnd k v s).rootWritten = s.rootWritten := rfl
@[simp] theorem writeOpnd_remWritten (k : Fin 4) (v : Word32) (s : State) :
    (writeOpnd k v s).remWritten = s.remWritten := rfl
@[simp] theorem writeOpnd_status (k : Fin 4) (v : Word32) (s : State) :
    (writeOpnd k v s).status = s.status := rfl
@[simp] theorem writeOpnd_fcmd (k : Fin 4) (v : Word32) (s : State) :
    (writeOpnd k v s).fcmd = s.fcmd := rfl
@[simp] theorem writeOpnd_lcmd (k : Fin 4) (v : Word32) (s : State) :
    (writeOpnd k v s).lcmd = s.lcmd := rfl
@[simp] theorem writeOpnd_lopnd (k : Fin 4) (v : Word32) (s : State) :
    (writeOpnd k v s).lopnd = s.lopnd := rfl
@[simp] theorem writeOpnd_lopndWritten (k : Fin 4) (v : Word32) (s : State) :
    (writeOpnd k v s).lopndWritten = s.lopndWritten := rfl
@[simp] theorem writeOpnd_engine (k : Fin 4) (v : Word32) (s : State) :
    (writeOpnd k v s).engine = s.engine := rfl
@[simp] theorem writeOpnd_hostOps (k : Fin 4) (v : Word32) (s : State) :
    (writeOpnd k v s).hostOps = s.hostOps := rfl
@[simp] theorem writeOpnd_hostReads (k : Fin 4) (v : Word32) (s : State) :
    (writeOpnd k v s).hostReads = s.hostReads := rfl
@[simp] theorem writeOpnd_turns (k : Fin 4) (v : Word32) (s : State) :
    (writeOpnd k v s).turns = s.turns := rfl

@[simp] theorem complete_opnd (r : Nat) (m : Option Nat) (a : Bool) (s : State) :
    (complete r m a s).opnd = s.opnd := by cases m <;> rfl
@[simp] theorem complete_root (r : Nat) (m : Option Nat) (a : Bool) (s : State) :
    (complete r m a s).root = BitVec.ofNat 128 r := rfl
@[simp] theorem complete_rem (r : Nat) (m : Option Nat) (a : Bool) (s : State) :
    (complete r m a s).rem = (writeRem m s).rem := rfl
@[simp] theorem complete_opndWritten (r : Nat) (m : Option Nat) (a : Bool) (s : State) :
    (complete r m a s).opndWritten = s.opndWritten := by cases m <;> rfl
@[simp] theorem complete_rootWritten (r : Nat) (m : Option Nat) (a : Bool) (s : State) :
    (complete r m a s).rootWritten = allWritten := rfl
@[simp] theorem complete_remWritten (r : Nat) (m : Option Nat) (a : Bool) (s : State) :
    (complete r m a s).remWritten = (writeRem m s).remWritten := rfl
@[simp] theorem complete_status (r : Nat) (m : Option Nat) (a : Bool) (s : State) :
    (complete r m a s).status = s.status.complete a := rfl
@[simp] theorem complete_fcmd (r : Nat) (m : Option Nat) (a : Bool) (s : State) :
    (complete r m a s).fcmd = s.fcmd := by cases m <;> rfl
@[simp] theorem complete_lcmd (r : Nat) (m : Option Nat) (a : Bool) (s : State) :
    (complete r m a s).lcmd = s.lcmd := by cases m <;> rfl
@[simp] theorem complete_lopnd (r : Nat) (m : Option Nat) (a : Bool) (s : State) :
    (complete r m a s).lopnd = s.lopnd := by cases m <;> rfl
@[simp] theorem complete_lopndWritten (r : Nat) (m : Option Nat) (a : Bool) (s : State) :
    (complete r m a s).lopndWritten = s.lopndWritten := by cases m <;> rfl
@[simp] theorem complete_engine (r : Nat) (m : Option Nat) (a : Bool) (s : State) :
    (complete r m a s).engine = .idle := rfl
@[simp] theorem complete_hostOps (r : Nat) (m : Option Nat) (a : Bool) (s : State) :
    (complete r m a s).hostOps = s.hostOps := by cases m <;> rfl
@[simp] theorem complete_hostReads (r : Nat) (m : Option Nat) (a : Bool) (s : State) :
    (complete r m a s).hostReads = s.hostReads := by cases m <;> rfl
@[simp] theorem complete_turns (r : Nat) (m : Option Nat) (a : Bool) (s : State) :
    (complete r m a s).turns = s.turns := by cases m <;> rfl

@[simp] theorem popTurn_opnd (s : State) :
    (popTurn s).opnd = s.opnd := rfl
@[simp] theorem popTurn_root (s : State) :
    (popTurn s).root = s.root := rfl
@[simp] theorem popTurn_rem (s : State) :
    (popTurn s).rem = s.rem := rfl
@[simp] theorem popTurn_opndWritten (s : State) :
    (popTurn s).opndWritten = s.opndWritten := rfl
@[simp] theorem popTurn_rootWritten (s : State) :
    (popTurn s).rootWritten = s.rootWritten := rfl
@[simp] theorem popTurn_remWritten (s : State) :
    (popTurn s).remWritten = s.remWritten := rfl
@[simp] theorem popTurn_status (s : State) :
    (popTurn s).status = s.status := rfl
@[simp] theorem popTurn_fcmd (s : State) :
    (popTurn s).fcmd = s.fcmd := rfl
@[simp] theorem popTurn_lcmd (s : State) :
    (popTurn s).lcmd = s.lcmd := rfl
@[simp] theorem popTurn_lopnd (s : State) :
    (popTurn s).lopnd = s.lopnd := rfl
@[simp] theorem popTurn_lopndWritten (s : State) :
    (popTurn s).lopndWritten = s.lopndWritten := rfl
@[simp] theorem popTurn_engine (s : State) :
    (popTurn s).engine = s.engine := rfl
@[simp] theorem popTurn_hostOps (s : State) :
    (popTurn s).hostOps = s.hostOps := rfl
@[simp] theorem popTurn_hostReads (s : State) :
    (popTurn s).hostReads = s.hostReads := rfl
@[simp] theorem popTurn_turns (s : State) :
    (popTurn s).turns = s.turns.tail := rfl

@[simp] theorem writeRem_none (s : State) : writeRem none s = s := rfl
@[simp] theorem writeRem_some_rem (m : Nat) (s : State) :
    (writeRem (some m) s).rem = BitVec.ofNat 128 m := rfl
@[simp] theorem writeRem_some_remWritten (m : Nat) (s : State) :
    (writeRem (some m) s).remWritten = allWritten := rfl

@[simp] theorem Status_accept_busy (t : Status) :
    (Status.accept t).busy = true := rfl
@[simp] theorem Status_accept_done (t : Status) :
    (Status.accept t).done = false := rfl
@[simp] theorem Status_accept_absent (t : Status) :
    (Status.accept t).absent = t.absent := rfl
@[simp] theorem Status_accept_halted (t : Status) :
    (Status.accept t).halted = t.halted := rfl
@[simp] theorem Status_accept_cause (t : Status) :
    (Status.accept t).cause = t.cause := rfl

@[simp] theorem Status_complete_busy (a : Bool) (t : Status) :
    (Status.complete a t).busy = false := rfl
@[simp] theorem Status_complete_done (a : Bool) (t : Status) :
    (Status.complete a t).done = true := rfl
@[simp] theorem Status_complete_absent (a : Bool) (t : Status) :
    (Status.complete a t).absent = a := rfl
@[simp] theorem Status_complete_halted (a : Bool) (t : Status) :
    (Status.complete a t).halted = t.halted := rfl
@[simp] theorem Status_complete_cause (a : Bool) (t : Status) :
    (Status.complete a t).cause = t.cause := rfl

@[simp] theorem Status_fail_busy (c : Cause) (t : Status) :
    (Status.fail c t).busy = false := rfl
@[simp] theorem Status_fail_done (c : Cause) (t : Status) :
    (Status.fail c t).done = false := rfl
@[simp] theorem Status_fail_absent (c : Cause) (t : Status) :
    (Status.fail c t).absent = false := rfl
@[simp] theorem Status_fail_halted (c : Cause) (t : Status) :
    (Status.fail c t).halted = true := rfl
@[simp] theorem Status_fail_cause (c : Cause) (t : Status) :
    (Status.fail c t).cause = c := rfl

end Sys2Proof.Machine
end

