-- ==== Sys2Proof/Laws/Exec.lean ====
section
/-! SUPPORT. What a command can do, said once: `Perform` as one function of operation, engine and width (R95), every
meaning as `runCommand` over it, and the two answers a command can give. -/

namespace Sys2Proof.Machine

/-- The engines by name and width (R82). -/
def engineFn : Engine → Width → Nat → Nat
  | .bin, w => binEngine w.bits
  | .fp, w => fpIsqrt w.bits
  | .kar, .w8 => karIsqrt 0
  | .kar, .w16 => karIsqrt 1
  | .kar, .w32 => karIsqrt 2
  | .kar, .w64 => karIsqrt 3
  | .kar, .w128 => karIsqrt 4

/-- The with-remainder variant by width (R175). -/
def remFn : Width → Nat → Nat × Nat
  | .w8 => karIsqrtRem 0
  | .w16 => karIsqrtRem 1
  | .w32 => karIsqrtRem 2
  | .w64 => karIsqrtRem 3
  | .w128 => karIsqrtRem 4

/-- `Perform(op, W, eng, a)` (R95). -/
def performShape (sh : Shape) (a : BitVec sh.width.bits) : CmdOutcome :=
  match sh.op with
  | .isqrtU => performUnsigned (engineFn sh.engine sh.width) a
  | .isqrtremU => performRem (remFn sh.width) a
  | .chksqrtI => performChecked (engineFn sh.engine sh.width) a
  | .isqrtI => performFatal (engineFn sh.engine sh.width) a

/-- Every meaning is the engine step of R95 over its row of the opcode map. -/
theorem exec_eq_runCommand (i : Instr) (s : State) :
    exec i s = runCommand i.shape.width.bits (performShape i.shape) s := by
  cases i <;> rfl

/-- A command whose operand words were written answers the settled outcome. -/
theorem runCommand_of_written {w : Nat} (p : BitVec w → CmdOutcome) (s : State)
    (h : operandWritten w s.lopndWritten = true) :
    runCommand w p s = .next (settle (p (operand w s.lopnd)) s) := by
  simp [runCommand, h]

/-- A command with an unwritten operand word ends the run (R95, R262). -/
theorem runCommand_of_unwritten {w : Nat} (p : BitVec w → CmdOutcome) (s : State)
    (h : operandWritten w s.lopndWritten = false) :
    runCommand w p s = .fault .unwrittenOperand := by
  simp [runCommand, h]

/-- A command that answers a next state had its operand written and settled its outcome; nothing else happens. -/
theorem exec_next_cases {i : Instr} {s t : State} (h : exec i s = .next t) :
    operandWritten i.shape.width.bits s.lopndWritten = true ∧
      t = settle (performShape i.shape (operand i.shape.width.bits s.lopnd)) s := by
  rw [exec_eq_runCommand] at h
  unfold runCommand at h
  split at h
  · rename_i hw
    exact ⟨hw, (Host.Outcome.next.inj h).symm⟩
  · cases h

/-- The two ways a command ends: complete, with a root and perhaps a remainder, or the DOMAIN fault (R95, R97). -/
theorem settle_cases (o : CmdOutcome) (s : State) :
    (∃ r m a, settle o s = complete r m a s) ∨ settle o s = raiseFault .domain s.lcmd s := by
  cases o with
  | root r => exact .inl ⟨r, none, false, rfl⟩
  | rootRem r m => exact .inl ⟨r, some m, false, rfl⟩
  | absent => exact .inl ⟨0, none, true, rfl⟩
  | domainError => exact .inr rfl

/-- The engine step either is the ILLEGAL fault or the meaning of the decoded command (R95). -/
theorem engineStep_cases (s : State) :
    ((∃ why, decode s.lcmd = .illegal why) ∧ engineStep s = .next (raiseFault .illegal s.lcmd s)) ∨
      ∃ i, decode s.lcmd = .ok i ∧ engineStep s = exec i s := by
  unfold engineStep
  cases h : decode s.lcmd with
  | illegal why => exact .inl ⟨⟨why, rfl⟩, rfl⟩
  | ok i => exact .inr ⟨i, rfl, rfl⟩

/-- The sign bit of a signed operand is bit w-1 of the latch (R204). -/
theorem msb_operand {w : Nat} (hw : 0 < w) (latch : Reg128) :
    (operand w latch).msb = latch.getLsbD (w - 1) := by
  rw [operand, BitVec.msb_eq_getLsbD_last, BitVec.getLsbD_extractLsb']
  simp [hw]

/-- An ISQRT.I of a negative operand is the domain error (R202). -/
theorem performShape_domain {sh : Shape} {a : BitVec sh.width.bits} (hop : sh.op = .isqrtI)
    (hneg : a.msb = true) : performShape sh a = .domainError := by
  simp [performShape, hop, performFatal, signedRoot, isNegative, hneg]

/-- Every other command completes, and only an ISQRTREM writes REM (R97). -/
theorem settle_performShape_completes {sh : Shape} {a : BitVec sh.width.bits} (s : State)
    (h : ¬(sh.op = .isqrtI ∧ a.msb = true)) :
    ∃ r m absent, settle (performShape sh a) s = complete r m absent s ∧
      (sh.op ≠ .isqrtremU → m = none) := by
  unfold performShape
  cases ho : sh.op with
  | isqrtU => exact ⟨_, _, _, rfl, fun _ => rfl⟩
  | isqrtremU => exact ⟨_, _, _, rfl, fun h => absurd rfl h⟩
  | chksqrtI =>
    simp only [performChecked, signedRoot, isNegative]
    split <;> exact ⟨_, _, _, rfl, fun _ => rfl⟩
  | isqrtI =>
    have hn : a.msb = false := by simpa [ho] using h
    simp only [performFatal, signedRoot, isNegative, hn]
    exact ⟨_, _, _, rfl, fun _ => rfl⟩

end Sys2Proof.Machine
end

