-- ==== Sys2Proof/Laws/HostPort.lean ====
section
/-! SUPPORT. What a host access can do, said once: the cases of a write (R56) and of a CMD write (R93), and the answers
of the host's step. -/

namespace Sys2Proof

@[simp] theorem HostAccess.offset_read (off : Int) (size : Nat) : (HostAccess.read off size).offset = off := rfl
@[simp] theorem HostAccess.offset_write (off : Int) (size : Nat) (v : BitVec 32) :
    (HostAccess.write off size v).offset = off := rfl
@[simp] theorem HostAccess.size_read (off : Int) (size : Nat) : (HostAccess.read off size).size = size := rfl
@[simp] theorem HostAccess.size_write (off : Int) (size : Nat) (v : BitVec 32) :
    (HostAccess.write off size v).size = size := rfl

/-- Which accesses are admitted, as one proposition (R54). -/
theorem HostAccess.admitted_iff (a : HostAccess) :
    a.admitted = true ↔ a.size = 4 ∧ a.offset % 4 = 0 ∧ 0 ≤ a.offset ∧ a.offset + 4 ≤ 256 := by
  simp only [HostAccess.admitted, Bool.and_eq_true, beq_iff_eq, decide_eq_true_eq]
  omega

end Sys2Proof

namespace Sys2Proof.Machine

/-- A CMD write raises PROTOCOL while a command is in flight and is accepted otherwise (R93, R253). -/
theorem commandWrite_cases (v : Word32) (s : State) :
    (s.engine = .busy ∧ commandWrite v s = raiseFault .protocol v s) ∨
      (s.engine ≠ .busy ∧ commandWrite v s = latchCommand v s) := by
  unfold commandWrite
  split
  · exact .inl ⟨‹_›, rfl⟩
  · exact .inr ⟨‹_›, rfl⟩

/-- A host write is ignored, or stores one OPND word, or is a CMD write; the last two only when not HALTED (R56, R259). -/
theorem memWrite_cases (off : Nat) (v : Word32) (s : State) :
    memWrite off v s = s ∨
      (s.status.halted = false ∧
        ((∃ k, windowReg off = .opnd k ∧ memWrite off v s = writeOpnd k v s) ∨
          (windowReg off = .cmd ∧ memWrite off v s = commandWrite v s))) := by
  unfold memWrite
  cases hh : s.status.halted with
  | true => exact .inl (if_pos rfl)
  | false =>
    rw [if_neg (by simp)]
    cases windowReg off with
    | opnd k => exact .inr ⟨rfl, .inl ⟨k, rfl, rfl⟩⟩
    | cmd => exact .inr ⟨rfl, .inr ⟨rfl, rfl⟩⟩
    | root k => exact .inl rfl
    | rem k => exact .inl rfl
    | status => exact .inl rfl
    | fcmd => exact .inl rfl
    | reserved => exact .inl rfl

/-- A delivered answer changes nothing but the list of answers (R55). -/
theorem deliver_next {answer : Option Word32} {s t : State} (h : deliver answer s = .next t) :
    ∃ v, answer = some v ∧ t = { s with hostReads := s.hostReads ++ [v] } := by
  cases answer with
  | none => cases h
  | some v => exact ⟨v, rfl, (Host.Outcome.next.inj h).symm⟩

/-- One round of a poll loop reads a word with a value, and changes only what the host has to do and its answers (R91). -/
theorem pollWord_next {op : HostOp} {off : Nat} {mask want : Word32} {rest : List HostOp} {s t : State}
    (h : pollWord op off mask want rest s = .next t) :
    ∃ v, memRead off s = some v ∧
      t = { s with hostOps := if v &&& mask = want then rest else op :: rest,
                   hostReads := s.hostReads ++ [v] } := by
  obtain ⟨v, hv, rfl⟩ := deliver_next h
  exact ⟨v, hv, by simp [hv]⟩

/-- The host's step, when it answers a next state: nothing to do, one read, one write, or one round of a poll loop. -/
theorem hostStep_next {s t : State} (h : hostStep s = .next t) :
    (s.hostOps = [] ∧ t = s) ∨
      (∃ off size v rest, s.hostOps = .access (.read off size) :: rest ∧
        memRead off.toNat { s with hostOps := rest } = some v ∧
        t = { s with hostOps := rest, hostReads := s.hostReads ++ [v] }) ∨
      (∃ off size v rest, s.hostOps = .access (.write off size v) :: rest ∧
        t = memWrite off.toNat v { s with hostOps := rest }) ∨
      (∃ op off mask want v rest,
        (op = .wait ∧ off = 0x34 ∧ mask = 1#32 ∧ want = 0#32 ∨ op = .poll off mask want) ∧
        s.hostOps = op :: rest ∧ memRead off.toNat s = some v ∧
        t = { s with hostOps := (if v &&& mask = want then rest else op :: rest),
                     hostReads := s.hostReads ++ [v] }) := by
  unfold hostStep at h
  split at h
  · exact .inl ⟨‹_›, (Host.Outcome.next.inj h).symm⟩
  · rename_i a rest hops
    split at h
    · cases a with
      | read off size =>
        obtain ⟨v, hv, ht⟩ := deliver_next h
        exact .inr (.inl ⟨off, size, v, rest, hops, hv, ht⟩)
      | write off size v =>
        exact .inr (.inr (.inl ⟨off, size, v, rest, hops, (Host.Outcome.next.inj h).symm⟩))
    · cases h
  · rename_i rest hops
    obtain ⟨v, hv, ht⟩ := pollWord_next h
    exact .inr (.inr (.inr ⟨.wait, 0x34, 1#32, 0#32, v, rest, .inl ⟨rfl, rfl, rfl, rfl⟩, hops, hv, ht⟩))
  · rename_i off mask want rest hops
    obtain ⟨v, hv, ht⟩ := pollWord_next h
    exact .inr (.inr (.inr ⟨_, off, mask, want, v, rest, .inr rfl, hops, hv, ht⟩))

end Sys2Proof.Machine
end

