-- ==== Sys2Proof/Laws/KarEngine.lean ====
section
/-! SUPPORT. The two ends of a Karatsuba step, and how its intermediate values hang together (R161). -/

namespace Sys2Proof.Machine

/-- Step 5 is one exact division: numerator, divisor, quotient and rest. -/
theorem karVars_division (w m : Nat) (halfRem : Nat → Nat × Nat) :
    (karVars w m halfRem).den * (karVars w m halfRem).q + (karVars w m halfRem).u =
      (karVars w m halfRem).num :=
  Nat.div_add_mod _ _

/-- Step 6: the root before the correction. -/
theorem karVars_root (w m : Nat) (halfRem : Nat → Nat × Nat) :
    (karVars w m halfRem).s = (karVars w m halfRem).s1 * 2 ^ (w / 4) + (karVars w m halfRem).q :=
  rfl

/-- A step either needs no correction or exactly one (R161, R164). -/
theorem karCombine_cases (v : KarVars) :
    (v.q * v.q ≤ v.t ∧ karCombine v = (v.s, v.t - v.q * v.q)) ∨
      (v.t < v.q * v.q ∧ karCombine v = (v.s - 1, v.t + 2 * v.s - 1 - v.q * v.q)) := by
  unfold karCombine
  split
  · exact .inl ⟨‹_›, rfl⟩
  · exact .inr ⟨Nat.lt_of_not_le ‹_›, rfl⟩

end Sys2Proof.Machine
end

