-- ==== Sys2Proof/Laws/PerInstr.lean ====
section
/-! SUPPORT. What holds of every command as syntax, one lemma per constructor: it is well formed (R6), and the fields of
its word are legal (R84). -/

namespace Sys2Proof.Laws.Legal

/-- The command exists (R6) and its word meets the five conditions of R84. -/
def Statement (i : Instr) : Prop := i.wf = true ∧ (fieldsOf (encode i)).legal = true

theorem isqrtU8Bin : Statement .isqrtU8Bin := ⟨rfl, rfl⟩
theorem isqrtU16Bin : Statement .isqrtU16Bin := ⟨rfl, rfl⟩
theorem isqrtU32Bin : Statement .isqrtU32Bin := ⟨rfl, rfl⟩
theorem isqrtU64Bin : Statement .isqrtU64Bin := ⟨rfl, rfl⟩
theorem isqrtU128Bin : Statement .isqrtU128Bin := ⟨rfl, rfl⟩
theorem isqrtU8Fp : Statement .isqrtU8Fp := ⟨rfl, rfl⟩
theorem isqrtU16Fp : Statement .isqrtU16Fp := ⟨rfl, rfl⟩
theorem isqrtU32Fp : Statement .isqrtU32Fp := ⟨rfl, rfl⟩
theorem isqrtU64Fp : Statement .isqrtU64Fp := ⟨rfl, rfl⟩
theorem isqrtU128Fp : Statement .isqrtU128Fp := ⟨rfl, rfl⟩
theorem isqrtU8Kar : Statement .isqrtU8Kar := ⟨rfl, rfl⟩
theorem isqrtU16Kar : Statement .isqrtU16Kar := ⟨rfl, rfl⟩
theorem isqrtU32Kar : Statement .isqrtU32Kar := ⟨rfl, rfl⟩
theorem isqrtU64Kar : Statement .isqrtU64Kar := ⟨rfl, rfl⟩
theorem isqrtU128Kar : Statement .isqrtU128Kar := ⟨rfl, rfl⟩
theorem isqrtremU8Kar : Statement .isqrtremU8Kar := ⟨rfl, rfl⟩
theorem isqrtremU16Kar : Statement .isqrtremU16Kar := ⟨rfl, rfl⟩
theorem isqrtremU32Kar : Statement .isqrtremU32Kar := ⟨rfl, rfl⟩
theorem isqrtremU64Kar : Statement .isqrtremU64Kar := ⟨rfl, rfl⟩
theorem isqrtremU128Kar : Statement .isqrtremU128Kar := ⟨rfl, rfl⟩
theorem chksqrtI8Bin : Statement .chksqrtI8Bin := ⟨rfl, rfl⟩
theorem chksqrtI16Bin : Statement .chksqrtI16Bin := ⟨rfl, rfl⟩
theorem chksqrtI32Bin : Statement .chksqrtI32Bin := ⟨rfl, rfl⟩
theorem chksqrtI64Bin : Statement .chksqrtI64Bin := ⟨rfl, rfl⟩
theorem chksqrtI128Bin : Statement .chksqrtI128Bin := ⟨rfl, rfl⟩
theorem chksqrtI8Fp : Statement .chksqrtI8Fp := ⟨rfl, rfl⟩
theorem chksqrtI16Fp : Statement .chksqrtI16Fp := ⟨rfl, rfl⟩
theorem chksqrtI32Fp : Statement .chksqrtI32Fp := ⟨rfl, rfl⟩
theorem chksqrtI64Fp : Statement .chksqrtI64Fp := ⟨rfl, rfl⟩
theorem chksqrtI128Fp : Statement .chksqrtI128Fp := ⟨rfl, rfl⟩
theorem chksqrtI8Kar : Statement .chksqrtI8Kar := ⟨rfl, rfl⟩
theorem chksqrtI16Kar : Statement .chksqrtI16Kar := ⟨rfl, rfl⟩
theorem chksqrtI32Kar : Statement .chksqrtI32Kar := ⟨rfl, rfl⟩
theorem chksqrtI64Kar : Statement .chksqrtI64Kar := ⟨rfl, rfl⟩
theorem chksqrtI128Kar : Statement .chksqrtI128Kar := ⟨rfl, rfl⟩
theorem isqrtI8Bin : Statement .isqrtI8Bin := ⟨rfl, rfl⟩
theorem isqrtI16Bin : Statement .isqrtI16Bin := ⟨rfl, rfl⟩
theorem isqrtI32Bin : Statement .isqrtI32Bin := ⟨rfl, rfl⟩
theorem isqrtI64Bin : Statement .isqrtI64Bin := ⟨rfl, rfl⟩
theorem isqrtI128Bin : Statement .isqrtI128Bin := ⟨rfl, rfl⟩
theorem isqrtI8Fp : Statement .isqrtI8Fp := ⟨rfl, rfl⟩
theorem isqrtI16Fp : Statement .isqrtI16Fp := ⟨rfl, rfl⟩
theorem isqrtI32Fp : Statement .isqrtI32Fp := ⟨rfl, rfl⟩
theorem isqrtI64Fp : Statement .isqrtI64Fp := ⟨rfl, rfl⟩
theorem isqrtI128Fp : Statement .isqrtI128Fp := ⟨rfl, rfl⟩
theorem isqrtI8Kar : Statement .isqrtI8Kar := ⟨rfl, rfl⟩
theorem isqrtI16Kar : Statement .isqrtI16Kar := ⟨rfl, rfl⟩
theorem isqrtI32Kar : Statement .isqrtI32Kar := ⟨rfl, rfl⟩
theorem isqrtI64Kar : Statement .isqrtI64Kar := ⟨rfl, rfl⟩
theorem isqrtI128Kar : Statement .isqrtI128Kar := ⟨rfl, rfl⟩

end Sys2Proof.Laws.Legal
end

