-- ==== Sys2Proof/Laws/Step.lean ====
section
/-! SUPPORT. What a step can do, said once: who moves, and then that agent's step. -/

namespace Sys2Proof.Machine

/-- A step is the engine's (only when BUSY), the host's (only when its next operation is admitted), or nobody's. -/
theorem step_cases (s : State) :
    (s.engine = .busy ∧ step s = engineStep (popTurn s)) ∨
      (hostReady s = true ∧ step s = hostStep (popTurn s)) ∨
      (s.engine ≠ .busy ∧ hostReady s = false ∧ step s = waitStep s) := by
  unfold step nextAgent engineReady
  by_cases he : s.engine = .busy <;> cases hh : hostReady s <;> simp [he]
  · cases scheduled s <;> simp

/-- A latched command is in flight exactly when the engine may move. -/
theorem engineReady_iff (s : State) : engineReady s = true ↔ s.engine = .busy := by
  simp [engineReady]

/-- Only offset 0x30 is CMD (R51). -/
theorem windowReg_eq_cmd {off : Nat} (h : windowReg off = .cmd) : off = 0x30 := by
  revert h
  unfold windowReg
  repeat' split
  all_goals simp_all

/-- Everything a step that answers a next state can be: an engine step, which faults or completes; or a step that leaves the
unit alone, stores one OPND word, or writes CMD, up to the host's own fields. -/
theorem step_next_kinds {s t : State} (h : step s = .next t) :
    (s.engine = .busy ∧
      ((∃ c, (c = .illegal ∨ c = .domain) ∧ t = raiseFault c s.lcmd (popTurn s)) ∨
        ∃ r m a, t = complete r m a (popTurn s) ∧ (a = true → r = 0))) ∨
      ∃ s1 : State,
        ((∃ ops answers,
            s1 = { s with hostOps := ops, hostReads := answers, turns := s.turns.tail }) ∨ s1 = s) ∧
        (t = s1 ∨ (s.status.halted = false ∧
          ((∃ k v, t = writeOpnd k v s1) ∨
            ∃ v rest, s.hostOps = .access (.write 0x30 4 v) :: rest ∧ t = commandWrite v s1))) := by
  rcases step_cases s with ⟨he, hs⟩ | ⟨hr, hs⟩ | ⟨-, -, hs⟩
  · rw [hs] at h
    refine .inl ⟨he, ?_⟩
    rcases engineStep_cases (popTurn s) with ⟨-, h'⟩ | ⟨i, -, h'⟩
    · rw [h'] at h
      cases h
      exact .inl ⟨_, .inl rfl, rfl⟩
    · rw [h'] at h
      obtain ⟨-, rfl⟩ := exec_next_cases h
      generalize performShape i.shape (operand i.shape.width.bits (popTurn s).lopnd) = o
      cases o with
      | root r => exact .inr ⟨r, none, false, rfl, by simp⟩
      | rootRem r m => exact .inr ⟨r, some m, false, rfl, by simp⟩
      | absent => exact .inr ⟨0, none, true, rfl, by simp⟩
      | domainError => exact .inl ⟨_, .inr rfl, rfl⟩
  · rw [hs] at h
    refine .inr ?_
    rcases hostStep_next h with ⟨-, rfl⟩ | ⟨off, size, v, rest, -, -, rfl⟩ |
      ⟨off, size, v, rest, ho, rfl⟩ | ⟨op, off, mask, want, v, rest, -, -, -, rfl⟩
    · exact ⟨popTurn s, .inl ⟨s.hostOps, s.hostReads, rfl⟩, .inl rfl⟩
    · exact ⟨_, .inl ⟨rest, s.hostReads ++ [v], rfl⟩, .inl rfl⟩
    · refine ⟨{ popTurn s with hostOps := rest }, .inl ⟨rest, s.hostReads, rfl⟩, ?_⟩
      rcases memWrite_cases off.toNat v { popTurn s with hostOps := rest } with
        hw | ⟨hh, ⟨k, -, hw⟩ | ⟨hk, hw⟩⟩
      · exact .inl hw
      · exact .inr ⟨hh, .inl ⟨k, v, hw⟩⟩
      · refine .inr ⟨hh, .inr ⟨v, rest, ?_, hw⟩⟩
        have hoff := windowReg_eq_cmd hk
        obtain rfl : off = 0x30 := by omega
        have ho' : s.hostOps = .access (.write 0x30 size v) :: rest := ho
        have hsz : size = 4 := by
          have hw : (HostAccess.write 0x30 size v).admitted = true := by
            simpa [hostReady, ho', HostOp.wf] using hr
          exact (HostAccess.admitted_iff _).1 hw |>.1
        rw [ho', hsz]
    · exact ⟨_, .inl ⟨_, s.hostReads ++ [v], rfl⟩, .inl rfl⟩
  · rw [hs] at h
    unfold waitStep at h
    split at h
    · cases h
      exact .inr ⟨s, .inr rfl, .inl rfl⟩
    · cases h

theorem coreRun_next (M : Host.Core) (k : Nat) (s t : M.State) (h : M.step s = .next t) :
    M.run (k + 1) s = M.run k t := by
  simp only [Host.Core.run, h]

/-- A run of one step more. -/
theorem run_next {k : Nat} {s t : State} (h : step s = .next t) :
    Host.Core.run core (k + 1) s = Host.Core.run core k t :=
  coreRun_next core k s t h

theorem coreRun_next_inv (M : Host.Core) (k : Nat) (s t : M.State) (h : M.run (k + 1) s = .next t) :
    ∃ u, M.step s = .next u ∧ M.run k u = .next t := by
  simp only [Host.Core.run] at h
  split at h
  · exact ⟨_, ‹_›, h⟩
  · cases h
  · cases h

/-- A run that answers a next state took its first step. -/
theorem run_next_inv {k : Nat} {s t : State} (h : Host.Core.run core (k + 1) s = .next t) :
    ∃ u, step s = .next u ∧ Host.Core.run core k u = .next t :=
  coreRun_next_inv core k s t h

end Sys2Proof.Machine
end

