-- ==== Sys2Proof/Laws/Table.lean ====
section
/-! SUPPORT. The transcribed ROM is what the source's construction pass makes (R111). -/

namespace Sys2Proof.Machine

theorem baseTable_length : baseTable.length = 256 := by decide +kernel

theorem baseTable_eq_pass : baseTable = tablePass 256 0 0 1 := by decide +kernel

end Sys2Proof.Machine
end

