-- ==== Sys2Proof/Laws/Words.lean ====
section
/-! SUPPORT. Words of 128-bit registers and their written-flags: a word written is the word read, and the other words stay
(R52, R56); the words of two registers decide their operands (R87, R95). -/

namespace Sys2Proof.Machine

theorem getLsbD_setWord (r : Reg128) (k : Fin 4) (v : Word32) (i : Nat) (hi : i < 128) :
    (setWord r k v).getLsbD i =
      if 32 * k.val ≤ i ∧ i < 32 * k.val + 32 then v.getLsbD (i - 32 * k.val) else r.getLsbD i := by
  have hm : ∀ j, ((BitVec.allOnes 32).setWidth 128).getLsbD j = decide (j < 32) := by
    intro j
    rw [BitVec.getLsbD_setWidth, BitVec.getLsbD_allOnes]
    by_cases hj : j < 32
    · simp [hj, show j < 128 by omega]
    · simp [hj]
  unfold setWord
  generalize (BitVec.allOnes 32).setWidth 128 = m at hm ⊢
  rw [BitVec.getLsbD_or, BitVec.getLsbD_and, BitVec.getLsbD_not, BitVec.getLsbD_shiftLeft,
    BitVec.getLsbD_shiftLeft, BitVec.getLsbD_setWidth, hm]
  by_cases h : 32 * k.val ≤ i ∧ i < 32 * k.val + 32
  · have h1 : i - 32 * k.val < 32 := by omega
    have h2 : ¬ i < 32 * k.val := by omega
    have h3 : i - 32 * k.val < 128 := by omega
    simp [h, hi, h1, h2, h3]
  · by_cases h2 : i < 32 * k.val
    · simp [hi, h2, h]
    · have h1 : ¬ i - 32 * k.val < 32 := by omega
      have h4 : v.getLsbD (i - 32 * k.val) = false := BitVec.getLsbD_of_ge _ _ (by omega)
      rw [h4]
      simp [hi, h2, h1, h]

@[simp] theorem getWord_setWord_same (r : Reg128) (k : Fin 4) (v : Word32) :
    getWord (setWord r k v) k = v := by
  apply BitVec.eq_of_getLsbD_eq
  intro i hi
  have hk := k.isLt
  rw [getWord, BitVec.getLsbD_extractLsb', getLsbD_setWord _ _ _ _ (by omega)]
  simp [hi]

theorem getWord_setWord_ne (r : Reg128) {k j : Fin 4} (v : Word32) (h : j ≠ k) :
    getWord (setWord r k v) j = getWord r j := by
  apply BitVec.eq_of_getLsbD_eq
  intro i hi
  have hj := j.isLt
  have hne : j.val ≠ k.val := fun e => h (Fin.ext e)
  rw [getWord, BitVec.getLsbD_extractLsb', getLsbD_setWord _ _ _ _ (by omega), getWord,
    BitVec.getLsbD_extractLsb']
  rw [if_neg (by omega)]

/-- A bit of a register is a bit of one of its words. -/
theorem getLsbD_of_getWord (r : Reg128) (i : Nat) (hi : i < 128) :
    r.getLsbD i = (getWord r ⟨i / 32, by omega⟩).getLsbD (i % 32) := by
  rw [getWord, BitVec.getLsbD_extractLsb']
  have : 32 * (i / 32) + i % 32 = i := Nat.div_add_mod i 32
  simp [this, Nat.mod_lt]

@[simp] theorem get_set_same (f : WordFlags) (k : Fin 4) : (f.set k.val true k.isLt).get k = true := by
  simp [Vector.get_eq_getElem]

theorem get_set_ne (f : WordFlags) {k j : Fin 4} (h : j ≠ k) :
    (f.set k.val true k.isLt).get j = f.get j := by
  have hne : k.val ≠ j.val := fun e => h (Fin.ext e.symm)
  simp only [Vector.get_eq_getElem]
  exact Vector.getElem_set_ne _ _ hne

@[simp] theorem allWritten_get (k : Fin 4) : allWritten.get k = true := by
  simp [allWritten, Vector.get_eq_getElem]

@[simp] theorem noneWritten_get (k : Fin 4) : noneWritten.get k = false := by
  simp [noneWritten, Vector.get_eq_getElem]

/-- The written-flag check of R95 covers exactly the words k with 32k < w. -/
theorem operandWritten_iff (w : Nat) (f : WordFlags) (hw : 0 < w) :
    operandWritten w f = true ↔ ∀ k : Fin 4, 32 * k.val < w → f.get k = true := by
  simp only [operandWritten, Bool.and_eq_true, Bool.or_eq_true, decide_eq_true_eq,
    Vector.get_eq_getElem, Fin.forall_fin_succ]
  simp only [Fin.val_zero, Fin.val_succ, Nat.mul_zero]
  constructor
  · rintro ⟨⟨⟨h0, h1⟩, h2⟩, h3⟩
    refine ⟨fun _ => h0, fun h => ?_, fun h => ?_, fun h => ?_, fun i => i.elim0⟩
    · exact h1.resolve_left (by omega)
    · exact h2.resolve_left (by omega)
    · exact h3.resolve_left (by omega)
  · rintro ⟨h0, h1, h2, h3, -⟩
    refine ⟨⟨⟨h0 hw, ?_⟩, ?_⟩, ?_⟩
    · by_cases h : w ≤ 32
      · exact .inl h
      · exact .inr (h1 (by omega))
    · by_cases h : w ≤ 64
      · exact .inl h
      · exact .inr (h2 (by omega))
    · by_cases h : w ≤ 96
      · exact .inl h
      · exact .inr (h3 (by omega))

/-- A command word laid out in bytes is read back as itself (R52). -/
theorem wordOfBytes_bytesOfWord (c : Word32) :
    wordOfBytes (c.extractLsb' 0 8) (c.extractLsb' 8 8) (c.extractLsb' 16 8) (c.extractLsb' 24 8) = c := by
  unfold wordOfBytes
  apply BitVec.eq_of_getLsbD_eq
  intro i hi
  simp only [BitVec.getLsbD_append, BitVec.getLsbD_extractLsb']
  by_cases h1 : i < 8
  · simp [h1]
  · by_cases h2 : i - 8 < 8
    · simp [h1, h2]; congr 1; omega
    · by_cases h3 : i - 8 - 8 < 8
      · simp [h1, h2, h3]; congr 1; omega
      · simp [h1, h2, h3, show i - 8 - 8 - 8 < 8 by omega]; congr 1; omega

/-- Decoding a word's bytes is decoding the word (R88). -/
theorem decodeBytes_bytesOfWord (c : Word32) : decodeBytes (bytesOfWord c) = decode c := by
  show decode (wordOfBytes _ _ _ _) = _
  rw [wordOfBytes_bytesOfWord]

/-- Byte j of word k is bits 32k+8j+7 down to 32k+8j of the register (R52). -/
theorem byteOf_getWord (r : Reg128) (k j : Fin 4) :
    byteOf (getWord r k) j.val = r.extractLsb' (32 * k.val + 8 * j.val) 8 := by
  apply BitVec.eq_of_getLsbD_eq
  intro i hi
  have e : j.val % 4 = j.val := Nat.mod_eq_of_lt j.isLt
  simp only [byteOf, getWord, BitVec.getLsbD_extractLsb', e]
  simp [hi, show 8 * j.val + i < 32 by omega, Nat.add_assoc]

end Sys2Proof.Machine
end

