-- ==== Sys2Proof/Tests/Slice0.lean ====
section
/-! SUPPORT. Tests of the model against values the spec writes out (95_test_vectors.md and the rules named beside each
test), and a witness for the hypotheses of every statement that has some. -/

namespace Sys2Proof.Tests

open Sys2Proof.Machine Sys2Proof.Claims

-- One theorem at a time: many kernel evaluations at once would need a thread each.
set_option Elab.async false

/-! ### Helpers -/

/-- A command in flight: the host wrote all of OPND with n and then CMD with c, from reset. -/
def flight (c : Word32) (n : Nat) : State :=
  latchCommand c { State.reset with opnd := BitVec.ofNat 128 n, opndWritten := allWritten }

/-- The state after an outcome, if there is one. -/
def after (o : Host.Outcome State Fault Refusal) : Option State :=
  match o with
  | .next s => some s
  | .fault _ => none
  | .refused _ => none

/-- The fault an outcome ends in, if it does. -/
def faultOf (o : Host.Outcome State Fault Refusal) : Option Fault :=
  match o with
  | .next _ => none
  | .fault f => some f
  | .refused _ => none

/-- One step of a command in flight: the ROOT it leaves and the STATUS word. -/
def rootAfter (c : Word32) (n : Nat) : Option (Nat × Word32) :=
  (after (step (flight c n))).map (fun s => (s.root.toNat, s.status.word))

/-- One step of a command in flight: the ROOT and REM it leaves and the STATUS word. -/
def pairAfter (c : Word32) (n : Nat) : Option (Nat × Nat × Word32) :=
  (after (step (flight c n))).map (fun s => (s.root.toNat, s.rem.toNat, s.status.word))

/-- One step of a faulting command in flight: the STATUS word, FCMD, and whether ROOT and REM stayed unwritten. -/
def faultAfter (c : Word32) (n : Nat) : Option (Word32 × Word32 × Bool) :=
  (after (step (flight c n))).map (fun s =>
    (s.status.word, s.fcmd, s.rootWritten == noneWritten && s.remWritten == noneWritten))

/-! ### Well-formedness -/

/-- R84, one illegal term for each condition. -/
theorem test_legal_rejects_reserved_wid : (CmdFields.mk 5#4 0#4 0#4 0#20).legal = false := by decide
theorem test_legal_rejects_reserved_eng : (CmdFields.mk 0#4 3#4 0#4 0#20).legal = false := by decide
theorem test_legal_rejects_reserved_op : (CmdFields.mk 0#4 0#4 4#4 0#20).legal = false := by decide
theorem test_legal_rejects_rsv : (CmdFields.mk 0#4 0#4 0#4 1#20).legal = false := by decide
theorem test_legal_rejects_rem_without_kar : (CmdFields.mk 0#4 1#4 1#4 0#20).legal = false := by decide
theorem test_legal_accepts_largest : (CmdFields.mk 4#4 2#4 3#4 0#20).legal = true := by decide

/-- R6: no ISQRTREM on BIN or FP. -/
theorem test_shape_rejects_rem_on_bin : (Shape.mk .isqrtremU .w8 .bin).wf = false := by decide
theorem test_shape_rejects_rem_on_fp : (Shape.mk .isqrtremU .w128 .fp).wf = false := by decide
theorem test_shape_accepts_rem_on_kar : (Shape.mk .isqrtremU .w128 .kar).wf = true := by decide

/-- R54, one access for each condition. -/
theorem test_access_rejects_halfword : (HostOp.access (.read 0x34 2)).wf = false := by decide
theorem test_access_rejects_misaligned : (HostOp.access (.write 0x02 4 0#32)).wf = false := by decide
theorem test_access_rejects_past_end : (HostOp.access (.read 0x100 4)).wf = false := by decide
theorem test_access_rejects_below_start :
    (HostOp.access (.read (-4) 4)).wf = false ∧ (HostOp.access (.write (-2) 4 0#32)).wf = false := by
  decide
theorem test_poll_rejects_misaligned : (HostOp.poll 0x36 1#32 0#32).wf = false := by decide
theorem test_access_accepts_last_word : (HostOp.access (.read 0xFC 4)).wf = true := by decide

/-! ### Decoding: the words of R80, written out as RSV (20 bits), OP, ENG, WID -/

theorem test_words_isqrt_u_bin :
    decode 0b00000000000000000000000000000000#32 = .ok .isqrtU8Bin ∧
    decode 0b00000000000000000000000000000001#32 = .ok .isqrtU16Bin ∧
    decode 0b00000000000000000000000000000010#32 = .ok .isqrtU32Bin ∧
    decode 0b00000000000000000000000000000011#32 = .ok .isqrtU64Bin ∧
    decode 0b00000000000000000000000000000100#32 = .ok .isqrtU128Bin := by
  decide

theorem test_words_isqrt_u_fp :
    decode 0b00000000000000000000000000010000#32 = .ok .isqrtU8Fp ∧
    decode 0b00000000000000000000000000010001#32 = .ok .isqrtU16Fp ∧
    decode 0b00000000000000000000000000010010#32 = .ok .isqrtU32Fp ∧
    decode 0b00000000000000000000000000010011#32 = .ok .isqrtU64Fp ∧
    decode 0b00000000000000000000000000010100#32 = .ok .isqrtU128Fp := by
  decide

theorem test_words_isqrt_u_kar :
    decode 0b00000000000000000000000000100000#32 = .ok .isqrtU8Kar ∧
    decode 0b00000000000000000000000000100001#32 = .ok .isqrtU16Kar ∧
    decode 0b00000000000000000000000000100010#32 = .ok .isqrtU32Kar ∧
    decode 0b00000000000000000000000000100011#32 = .ok .isqrtU64Kar ∧
    decode 0b00000000000000000000000000100100#32 = .ok .isqrtU128Kar := by
  decide

theorem test_words_isqrtrem_u_kar :
    decode 0b00000000000000000000000100100000#32 = .ok .isqrtremU8Kar ∧
    decode 0b00000000000000000000000100100001#32 = .ok .isqrtremU16Kar ∧
    decode 0b00000000000000000000000100100010#32 = .ok .isqrtremU32Kar ∧
    decode 0b00000000000000000000000100100011#32 = .ok .isqrtremU64Kar ∧
    decode 0b00000000000000000000000100100100#32 = .ok .isqrtremU128Kar := by
  decide

theorem test_words_chksqrt_i_bin :
    decode 0b00000000000000000000001000000000#32 = .ok .chksqrtI8Bin ∧
    decode 0b00000000000000000000001000000001#32 = .ok .chksqrtI16Bin ∧
    decode 0b00000000000000000000001000000010#32 = .ok .chksqrtI32Bin ∧
    decode 0b00000000000000000000001000000011#32 = .ok .chksqrtI64Bin ∧
    decode 0b00000000000000000000001000000100#32 = .ok .chksqrtI128Bin := by
  decide

theorem test_words_chksqrt_i_fp :
    decode 0b00000000000000000000001000010000#32 = .ok .chksqrtI8Fp ∧
    decode 0b00000000000000000000001000010001#32 = .ok .chksqrtI16Fp ∧
    decode 0b00000000000000000000001000010010#32 = .ok .chksqrtI32Fp ∧
    decode 0b00000000000000000000001000010011#32 = .ok .chksqrtI64Fp ∧
    decode 0b00000000000000000000001000010100#32 = .ok .chksqrtI128Fp := by
  decide

theorem test_words_chksqrt_i_kar :
    decode 0b00000000000000000000001000100000#32 = .ok .chksqrtI8Kar ∧
    decode 0b00000000000000000000001000100001#32 = .ok .chksqrtI16Kar ∧
    decode 0b00000000000000000000001000100010#32 = .ok .chksqrtI32Kar ∧
    decode 0b00000000000000000000001000100011#32 = .ok .chksqrtI64Kar ∧
    decode 0b00000000000000000000001000100100#32 = .ok .chksqrtI128Kar := by
  decide

theorem test_words_isqrt_i_bin :
    decode 0b00000000000000000000001100000000#32 = .ok .isqrtI8Bin ∧
    decode 0b00000000000000000000001100000001#32 = .ok .isqrtI16Bin ∧
    decode 0b00000000000000000000001100000010#32 = .ok .isqrtI32Bin ∧
    decode 0b00000000000000000000001100000011#32 = .ok .isqrtI64Bin ∧
    decode 0b00000000000000000000001100000100#32 = .ok .isqrtI128Bin := by
  decide

theorem test_words_isqrt_i_fp :
    decode 0b00000000000000000000001100010000#32 = .ok .isqrtI8Fp ∧
    decode 0b00000000000000000000001100010001#32 = .ok .isqrtI16Fp ∧
    decode 0b00000000000000000000001100010010#32 = .ok .isqrtI32Fp ∧
    decode 0b00000000000000000000001100010011#32 = .ok .isqrtI64Fp ∧
    decode 0b00000000000000000000001100010100#32 = .ok .isqrtI128Fp := by
  decide

theorem test_words_isqrt_i_kar :
    decode 0b00000000000000000000001100100000#32 = .ok .isqrtI8Kar ∧
    decode 0b00000000000000000000001100100001#32 = .ok .isqrtI16Kar ∧
    decode 0b00000000000000000000001100100010#32 = .ok .isqrtI32Kar ∧
    decode 0b00000000000000000000001100100011#32 = .ok .isqrtI64Kar ∧
    decode 0b00000000000000000000001100100100#32 = .ok .isqrtI128Kar := by
  decide

/-- The illegal words of 95_test_vectors.md section 2.1, each for its own reason. -/
theorem test_illegal_words :
    decode 0x00000005#32 = .illegal .reservedWid ∧ decode 0x0000000F#32 = .illegal .reservedWid ∧
    decode 0x00000030#32 = .illegal .reservedEng ∧ decode 0x00000400#32 = .illegal .reservedOp ∧
    decode 0x00000100#32 = .illegal .remNeedsKar ∧ decode 0x00000110#32 = .illegal .remNeedsKar ∧
    decode 0x00001000#32 = .illegal .nonzeroRsv ∧ decode 0x80000000#32 = .illegal .nonzeroRsv ∧
    decode 0xFFFFFFFF#32 = .illegal .nonzeroRsv := by
  decide

/-- R52: the word of ISQRT.I128.KAR, lowest byte first. -/
theorem test_decode_bytes : decodeBytes [0x24#8, 0x03#8, 0x00#8, 0x00#8] = .ok .isqrtI128Kar := by decide

theorem test_decode_too_short : decodeBytes [0x24#8, 0x03#8, 0x00#8] = .illegal .truncated := by decide

theorem test_table_word : decodeTableWord 32 0x00000123 = some .isqrtremU64Kar := by decide

theorem test_mnemonic :
    instrOfMnemonic "isqrtrem.u16.kar".toList = some .isqrtremU16Kar ∧
    instrOfMnemonic "ISQRTREM.U16.BIN".toList = none := by
  decide +kernel

/-! ### One step of each command (95_test_vectors.md sections 1 and 2.3 to 2.6) -/

theorem test_isqrt_u8_bin :
    rootAfter 0x00000000#32 0xE0 = some (0xE, 0x02#32) ∧
    rootAfter 0x00000000#32 0xFF = some (0xF, 0x02#32) := by
  decide +kernel

theorem test_isqrt_u16_bin :
    rootAfter 0x00000001#32 0x3FFF = some (0x7F, 0x02#32) ∧
    rootAfter 0x00000001#32 0xF7F4 = some (0xFB, 0x02#32) := by
  decide +kernel

theorem test_isqrt_u32_bin :
    rootAfter 0x00000002#32 0xFFFE0000 = some (0xFFFE, 0x02#32) ∧
    rootAfter 0x00000002#32 0x586C7B45 = some (0x9674, 0x02#32) := by
  decide +kernel

theorem test_isqrt_u64_bin :
    rootAfter 0x00000003#32 0x3FFFFFFFFFFFFFFF = some (0x7FFFFFFF, 0x02#32) ∧
    rootAfter 0x00000003#32 0xFFFFFFFFFFFFFFFF = some (0xFFFFFFFF, 0x02#32) := by
  decide +kernel

theorem test_isqrt_u128_bin :
    rootAfter 0x00000004#32 0xFFFFFFFFFFFFFFFE0000000000000000 = some (0xFFFFFFFFFFFFFFFE, 0x02#32) ∧
    rootAfter 0x00000004#32 0x2E796CC51C4C289C952EE0CEE19FFC40 = some (0x6D13480193BD770B, 0x02#32) := by
  decide +kernel

theorem test_isqrt_u8_fp :
    rootAfter 0x00000010#32 0x0 = some (0x0, 0x02#32) ∧
    rootAfter 0x00000010#32 0x7A = some (0xB, 0x02#32) := by
  decide +kernel

theorem test_isqrt_u16_fp :
    rootAfter 0x00000011#32 0xFE00 = some (0xFE, 0x02#32) ∧
    rootAfter 0x00000011#32 0xDCCF = some (0xED, 0x02#32) := by
  decide +kernel

theorem test_isqrt_u32_fp :
    rootAfter 0x00000012#32 0xFFFE0000 = some (0xFFFE, 0x02#32) ∧
    rootAfter 0x00000012#32 0x499CBAF6 = some (0x8946, 0x02#32) := by
  decide +kernel

theorem test_isqrt_u64_fp :
    rootAfter 0x00000013#32 0x3FFFFFFFFFFFFFFF = some (0x7FFFFFFF, 0x02#32) ∧
    rootAfter 0x00000013#32 0xFFFFFFFFFFFFFFFF = some (0xFFFFFFFF, 0x02#32) := by
  decide +kernel

theorem test_isqrt_u128_fp :
    rootAfter 0x00000014#32 0x3FFFFFFFFFFFFFFFFFFFFFFFFFFFFFFF = some (0x7FFFFFFFFFFFFFFF, 0x02#32) ∧
    rootAfter 0x00000014#32 0x7DB8FF6078DCBACC2FC440955ACD34EC = some (0xB366DADA5881DC7E, 0x02#32) := by
  decide +kernel

theorem test_isqrt_u8_kar :
    rootAfter 0x00000020#32 0xE1 = some (0xF, 0x02#32) ∧
    rootAfter 0x00000020#32 0x63 = some (0x9, 0x02#32) := by
  decide +kernel

theorem test_isqrt_u16_kar :
    rootAfter 0x00000021#32 0x5000 = some (0x8F, 0x02#32) ∧
    rootAfter 0x00000021#32 0x30D4 = some (0x6F, 0x02#32) := by
  decide +kernel

theorem test_isqrt_u32_kar :
    rootAfter 0x00000022#32 0x3FFFFFFF = some (0x7FFF, 0x02#32) ∧
    rootAfter 0x00000022#32 0xA7601367 = some (0xCEFF, 0x02#32) := by
  decide +kernel

theorem test_isqrt_u64_kar :
    rootAfter 0x00000023#32 0x8000000000000000 = some (0xB504F333, 0x02#32) ∧
    rootAfter 0x00000023#32 0x6562DBA107C470C1 = some (0xA11AE8C9, 0x02#32) := by
  decide +kernel

theorem test_isqrt_u128_kar :
    rootAfter 0x00000024#32 0xFFFFFFFFFFFFFFFFFFFFFFFFFFFFFFFF = some (0xFFFFFFFFFFFFFFFF, 0x02#32) ∧
    rootAfter 0x00000024#32 0xB604459CB399EE29A34E100D6150A517 = some (0xD7DC9820AC150B97, 0x02#32) := by
  decide +kernel

theorem test_isqrtrem_u8_kar :
    pairAfter 0x00000120#32 0xE0 = some (0xE, 0x1C, 0x02#32) ∧
    pairAfter 0x00000120#32 0xFF = some (0xF, 0x1E, 0x02#32) := by
  decide +kernel

theorem test_isqrtrem_u16_kar :
    pairAfter 0x00000121#32 0x4100 = some (0x80, 0x100, 0x02#32) ∧
    pairAfter 0x00000121#32 0x12C = some (0x11, 0xB, 0x02#32) := by
  decide +kernel

theorem test_isqrtrem_u32_kar :
    pairAfter 0x00000122#32 0x3FFFFFFF = some (0x7FFF, 0xFFFE, 0x02#32) ∧
    pairAfter 0x00000122#32 0x92E6B438 = some (0xC1EC, 0x102A8, 0x02#32) := by
  decide +kernel

theorem test_isqrtrem_u64_kar :
    pairAfter 0x00000123#32 0xFFFFFFFE00000000 = some (0xFFFFFFFE, 0x1FFFFFFFC, 0x02#32) ∧
    pairAfter 0x00000123#32 0xF45034EA446A7A33 = some (0xFA16A13C, 0xF88DF423, 0x02#32) := by
  decide +kernel

theorem test_isqrtrem_u128_kar :
    pairAfter 0x00000124#32 0xBBB76284E21AED36553C2E5110F75DB9 = some (0xDB372371C23B20D0, 0x12552AB4DACE2B4B9, 0x02#32) ∧
    pairAfter 0x00000124#32 0x10000000000000000000003039 = some (0x4000000000000, 0x3039, 0x02#32) := by
  decide +kernel

theorem test_chksqrt_i8_bin :
    rootAfter 0x00000200#32 0x78 = some (0xA, 0x02#32) ∧
    rootAfter 0x00000200#32 0x80 = some (0x0, 0x06#32) := by
  decide +kernel

theorem test_chksqrt_i16_bin :
    rootAfter 0x00000201#32 0x7FF8 = some (0xB4, 0x02#32) ∧
    rootAfter 0x00000201#32 0x8000 = some (0x0, 0x06#32) := by
  decide +kernel

theorem test_chksqrt_i32_bin :
    rootAfter 0x00000202#32 0x7FFEA80F = some (0xB503, 0x02#32) ∧
    rootAfter 0x00000202#32 0x80000000 = some (0x0, 0x06#32) := by
  decide +kernel

theorem test_chksqrt_i64_bin :
    rootAfter 0x00000203#32 0x7FFFFFFFFFFFFFFF = some (0xB504F333, 0x02#32) ∧
    rootAfter 0x00000203#32 0x8000000000000000 = some (0x0, 0x06#32) := by
  decide +kernel

theorem test_chksqrt_i128_bin :
    rootAfter 0x00000204#32 0x7FFFFFFFFFFFFFFF817105534467640F = some (0xB504F333F9DE6483, 0x02#32) ∧
    rootAfter 0x00000204#32 0x80000000000000000000000000000000 = some (0x0, 0x06#32) := by
  decide +kernel

theorem test_chksqrt_i8_fp :
    rootAfter 0x00000210#32 0x78 = some (0xA, 0x02#32) ∧
    rootAfter 0x00000210#32 0xFF = some (0x0, 0x06#32) := by
  decide +kernel

theorem test_chksqrt_i16_fp :
    rootAfter 0x00000211#32 0x7FF8 = some (0xB4, 0x02#32) ∧
    rootAfter 0x00000211#32 0xFFFF = some (0x0, 0x06#32) := by
  decide +kernel

theorem test_chksqrt_i32_fp :
    rootAfter 0x00000212#32 0x7FFEA80F = some (0xB503, 0x02#32) ∧
    rootAfter 0x00000212#32 0xFFFFFFFF = some (0x0, 0x06#32) := by
  decide +kernel

theorem test_chksqrt_i64_fp :
    rootAfter 0x00000213#32 0x7FFFFFFFFFFFFFFF = some (0xB504F333, 0x02#32) ∧
    rootAfter 0x00000213#32 0xFFFFFFFFFFFFFFFF = some (0x0, 0x06#32) := by
  decide +kernel

theorem test_chksqrt_i128_fp :
    rootAfter 0x00000214#32 0x7FFFFFFFFFFFFFFF817105534467640F = some (0xB504F333F9DE6483, 0x02#32) ∧
    rootAfter 0x00000214#32 0xFFFFFFFFFFFFFFFFFFFFFFFFFFFFFFFF = some (0x0, 0x06#32) := by
  decide +kernel

theorem test_chksqrt_i8_kar :
    rootAfter 0x00000220#32 0x78 = some (0xA, 0x02#32) ∧
    rootAfter 0x00000220#32 0xFE = some (0x0, 0x06#32) := by
  decide +kernel

theorem test_chksqrt_i16_kar :
    rootAfter 0x00000221#32 0x7FF8 = some (0xB4, 0x02#32) ∧
    rootAfter 0x00000221#32 0xFFFE = some (0x0, 0x06#32) := by
  decide +kernel

theorem test_chksqrt_i32_kar :
    rootAfter 0x00000222#32 0x7FFEA80F = some (0xB503, 0x02#32) ∧
    rootAfter 0x00000222#32 0xFFFFFFFE = some (0x0, 0x06#32) := by
  decide +kernel

theorem test_chksqrt_i64_kar :
    rootAfter 0x00000223#32 0x7FFFFFFFFFFFFFFF = some (0xB504F333, 0x02#32) ∧
    rootAfter 0x00000223#32 0xFFFFFFFFFFFFFFFE = some (0x0, 0x06#32) := by
  decide +kernel

theorem test_chksqrt_i128_kar :
    rootAfter 0x00000224#32 0x7FFFFFFFFFFFFFFF817105534467640F = some (0xB504F333F9DE6483, 0x02#32) ∧
    rootAfter 0x00000224#32 0xFFFFFFFFFFFFFFFFFFFFFFFFFFFFFFFE = some (0x0, 0x06#32) := by
  decide +kernel

theorem test_isqrt_i8_bin :
    rootAfter 0x00000300#32 0x78 = some (0xA, 0x02#32) ∧
    faultAfter 0x00000300#32 0x80 = some (0x18#32, 0x00000300#32, true) := by
  decide +kernel

theorem test_isqrt_i16_bin :
    rootAfter 0x00000301#32 0x7FF8 = some (0xB4, 0x02#32) ∧
    faultAfter 0x00000301#32 0x8000 = some (0x18#32, 0x00000301#32, true) := by
  decide +kernel

theorem test_isqrt_i32_bin :
    rootAfter 0x00000302#32 0x7FFEA80F = some (0xB503, 0x02#32) ∧
    faultAfter 0x00000302#32 0x80000000 = some (0x18#32, 0x00000302#32, true) := by
  decide +kernel

theorem test_isqrt_i64_bin :
    rootAfter 0x00000303#32 0x7FFFFFFFFFFFFFFF = some (0xB504F333, 0x02#32) ∧
    faultAfter 0x00000303#32 0x8000000000000000 = some (0x18#32, 0x00000303#32, true) := by
  decide +kernel

theorem test_isqrt_i128_bin :
    rootAfter 0x00000304#32 0x7FFFFFFFFFFFFFFF817105534467640F = some (0xB504F333F9DE6483, 0x02#32) ∧
    faultAfter 0x00000304#32 0x80000000000000000000000000000000 = some (0x18#32, 0x00000304#32, true) := by
  decide +kernel

theorem test_isqrt_i8_fp :
    rootAfter 0x00000310#32 0x78 = some (0xA, 0x02#32) ∧
    faultAfter 0x00000310#32 0xFF = some (0x18#32, 0x00000310#32, true) := by
  decide +kernel

theorem test_isqrt_i16_fp :
    rootAfter 0x00000311#32 0x7FF8 = some (0xB4, 0x02#32) ∧
    faultAfter 0x00000311#32 0xFFFF = some (0x18#32, 0x00000311#32, true) := by
  decide +kernel

theorem test_isqrt_i32_fp :
    rootAfter 0x00000312#32 0x7FFEA80F = some (0xB503, 0x02#32) ∧
    faultAfter 0x00000312#32 0xFFFFFFFF = some (0x18#32, 0x00000312#32, true) := by
  decide +kernel

theorem test_isqrt_i64_fp :
    rootAfter 0x00000313#32 0x7FFFFFFFFFFFFFFF = some (0xB504F333, 0x02#32) ∧
    faultAfter 0x00000313#32 0xFFFFFFFFFFFFFFFF = some (0x18#32, 0x00000313#32, true) := by
  decide +kernel

theorem test_isqrt_i128_fp :
    rootAfter 0x00000314#32 0x7FFFFFFFFFFFFFFF817105534467640F = some (0xB504F333F9DE6483, 0x02#32) ∧
    faultAfter 0x00000314#32 0xFFFFFFFFFFFFFFFFFFFFFFFFFFFFFFFF = some (0x18#32, 0x00000314#32, true) := by
  decide +kernel

theorem test_isqrt_i8_kar :
    rootAfter 0x00000320#32 0x78 = some (0xA, 0x02#32) ∧
    faultAfter 0x00000320#32 0xFE = some (0x18#32, 0x00000320#32, true) := by
  decide +kernel

theorem test_isqrt_i16_kar :
    rootAfter 0x00000321#32 0x7FF8 = some (0xB4, 0x02#32) ∧
    faultAfter 0x00000321#32 0xFFFE = some (0x18#32, 0x00000321#32, true) := by
  decide +kernel

theorem test_isqrt_i32_kar :
    rootAfter 0x00000322#32 0x7FFEA80F = some (0xB503, 0x02#32) ∧
    faultAfter 0x00000322#32 0xFFFFFFFE = some (0x18#32, 0x00000322#32, true) := by
  decide +kernel

theorem test_isqrt_i64_kar :
    rootAfter 0x00000323#32 0x7FFFFFFFFFFFFFFF = some (0xB504F333, 0x02#32) ∧
    faultAfter 0x00000323#32 0xFFFFFFFFFFFFFFFE = some (0x18#32, 0x00000323#32, true) := by
  decide +kernel

theorem test_isqrt_i128_kar :
    rootAfter 0x00000324#32 0x7FFFFFFFFFFFFFFF817105534467640F = some (0xB504F333F9DE6483, 0x02#32) ∧
    faultAfter 0x00000324#32 0xFFFFFFFFFFFFFFFFFFFFFFFFFFFFFFFE = some (0x18#32, 0x00000324#32, true) := by
  decide +kernel

/-- An illegal word faults with itself, whatever the operand (P4, R252). -/
theorem test_illegal_step : faultAfter 0x00000005#32 0x31 = some (0x28#32, 0x00000005#32, true) := by
  decide +kernel

/-- R204's examples and the one of bit 96: the bits above the width are ignored. -/
theorem test_upper_bits_ignored :
    rootAfter 0x00000200#32 0x00000180 = some (0x0, 0x06#32) ∧
    rootAfter 0x00000300#32 0xFFFFFF7F = some (0xB, 0x02#32) ∧
    rootAfter 0x00000303#32 0x00000001000000000000000000000000 = some (0x0, 0x02#32) := by
  decide +kernel

/-! ### The engines' own steps -/

/-- 95_test_vectors.md section 2.2. -/
theorem test_table_reads :
    tablePair 0 = (0, 0) ∧ tablePair 3 = (1, 2) ∧ tablePair 63 = (7, 14) ∧ tablePair 64 = (8, 0) ∧
    tablePair 75 = (8, 11) ∧ tablePair 143 = (11, 22) ∧ tablePair 200 = (14, 4) ∧
    tablePair 225 = (15, 0) ∧ tablePair 255 = (15, 30) := by
  decide +kernel

/-- 95_test_vectors.md section 2.3, passes column: 0xE2 at W = 8 makes four passes, and the fourth leaves one = 0. -/
theorem test_bin_passes :
    (binLoop 3 (binStart 0xE2#8)).one = 1#8 ∧ (binLoop 4 (binStart 0xE2#8)).one = 0#8 ∧
    (binLoop 4 (binStart 0xE2#8)).res = 0xF#8 := by
  decide +kernel

/-- 95_test_vectors.md section 2.4, candidate column: the smallest wrong candidate, one below it, and 2^64 - 1. -/
theorem test_fp_candidates :
    fpCandidate 4503599761588224 = 67108865 ∧ fpCandidate 4503599761588223 = 67108864 ∧
    fpCandidate 18446744073709551615 = 4294967296 ∧ fpCandidate 9007198187187599 = 94906260 ∧
    fpCandidate 18446744030759878666 = 4294967291 := by
  decide +kernel

/-- R140: 2^53 + 1 lies halfway between two binary64 values and goes to the one with the even significand, and so does
2^53 + 3. -/
theorem test_fp_ties_to_even :
    (F64.ofNat (2 ^ 53 + 1)).trunc = 2 ^ 53 ∧ (F64.ofNat (2 ^ 53 + 3)).trunc = 2 ^ 53 + 4 := by
  decide +kernel

/-- R142: 2^32 squared overflows 64 bits and counts as too large. -/
theorem test_checked_square :
    checkedSquare 64 4294967296 = none ∧ checkedSquare 64 4294967295 = some 18446744065119617025 := by
  decide +kernel

/-- 43_karatsuba.md section 5: the traces of m = 0x4100 (borrow), m = 0x5000 (q = 2^Q) and of n = 300 (k = 6). -/
theorem test_kar_traces :
    karStep 16 0x4100 tablePair = (0x80, 0x100) ∧ karStep 16 0x5000 tablePair = (0x8F, 0x1F) ∧
    evenDown (clz 16 300) = 6 ∧ karIsqrtRem 1 300 = (17, 11) := by
  decide +kernel

/-! ### The host port and the machine -/

/-- P7: OPND1 was never written, so a 64-bit command has no operand and a 32-bit one has. -/
def halfWritten (c : Word32) : State :=
  memWrite 0x30 c (memWrite 0x00 0x12345678#32 State.reset)

theorem test_unwritten_operand :
    faultOf (step (halfWritten 0x00000003#32)) = some .unwrittenOperand ∧
    (after (step (halfWritten 0x00000002#32))).map (fun s => s.root.toNat) = some 0x4444 := by
  decide +kernel

/-- P1, access 6, and R281: STATUS reads BUSY after acceptance, and REM reads nothing. -/
theorem test_reads_after_issue :
    memRead 0x34 (flight 0x00000023#32 5) = some 0x00000001#32 ∧
    memRead 0x00 (flight 0x00000023#32 5) = some 5#32 ∧
    memRead 0x20 (flight 0x00000023#32 5) = none ∧ memRead 0x30 (flight 0x00000023#32 5) = some 0#32 := by
  decide +kernel

/-- P5, run (b): the second CMD write is PROTOCOL with the new word, and ROOT stays unwritten. -/
theorem test_protocol :
    (memWrite 0x30 0x00000010#32 (flight 0x00000004#32 7)).status.word = 0x38#32 ∧
    (memWrite 0x30 0x00000010#32 (flight 0x00000004#32 7)).fcmd = 0x00000010#32 ∧
    memRead 0x10 (memWrite 0x30 0x00000010#32 (flight 0x00000004#32 7)) = none := by
  decide +kernel

/-- P2, access 14: acceptance keeps ABSENT, so STATUS reads 0x05. -/
theorem test_absent_survives_acceptance :
    (after (step (flight 0x00000202#32 0xFFFFFFFF))).map
      (fun s => (memWrite 0x30 0x00000312#32 s).status.word) = some 0x00000005#32 := by
  decide +kernel

/-- P3, accesses 13 and 14: while HALTED a write to OPND or CMD is ignored. -/
theorem test_halted_ignores :
    (after (step (flight 0x00000321#32 0x0000FFFB))).map
      (fun s => (memWrite 0x00 0x10#32 s == s, memWrite 0x30 1#32 s == s)) = some (true, true) := by
  decide +kernel

/-- R52, R56: word 3 of OPND is bits 127 to 96. -/
theorem test_opnd_word_three :
    (memWrite 0x0C 0x10000000#32 { State.reset with opnd := 0x51#128 }).opnd =
      0x10000000000000000000000000000051#128 := by
  decide +kernel

/-- R52: byte 1 of ROOT's word 1 is bits 47 to 40. -/
theorem test_window_byte :
    windowByte 0x15 { State.reset with root := 0x0000AB0000000000#128, rootWritten := allWritten } =
      some 0xAB#8 := by
  decide +kernel

/-- R91: `wait` polls once more while BUSY and ends on the poll that shows BUSY = 0; the host's turn comes first. -/
theorem test_wait_polls :
    (after (step { flight 0x00000000#32 9 with hostOps := [.wait], turns := [.host] })).map
      (fun s => (s.hostOps, s.hostReads)) = some ([.wait], [1#32]) ∧
    (after (step { State.reset with hostOps := [.wait] })).map (fun s => (s.hostOps, s.hostReads)) =
      some ([], [0#32]) := by
  decide +kernel

/-- R54: a word access that starts below BASE has no step, so an idle unit's host is stuck. -/
theorem test_access_below_base :
    faultOf (step { State.reset with hostOps := opLw (-4) }) = some .inadmissibleAccess ∧
    faultOf (step { State.reset with hostOps := opSw (-2) 7#32 }) = some .inadmissibleAccess := by
  decide +kernel

/-- A launch: after reset the host writes OPND0 and CMD and does nothing more. -/
def launch (v : Word32) (c : Word32) : State := { State.reset with hostOps := opSw 0x00 v ++ opIssue c }

/-- R291: a run that completes ends in a final state, one that halts in none, and one that raises a model fault in none. -/
theorem test_run_verdicts :
    runVerdict 2 (launch 9#32 0x00000000#32) ≠ runVerdict 3 (launch 9#32 0x00000000#32) ∧
    ((match runVerdict 3 (launch 9#32 0x00000000#32) with
      | .final t => some t.root.toNat | _ => none) = some 3) ∧
    ((match runVerdict 3 (launch 0x80#32 0x00000300#32) with
      | .faulted t => some t.status.word | _ => none) = some 0x18#32) ∧
    runVerdict 3 (launch 9#32 0x00000003#32) = .modelFault .unwrittenOperand ∧
    runVerdict 1 { State.reset with hostOps := opLw 0x10 } = .modelFault .unwrittenRead ∧
    runVerdict 1 { State.reset with hostOps := opLw 0x102 } = .stuck := by
  decide +kernel

/-- R91: `ld.opnd` writes word 0 first; `sqrt` is `ld.opnd`, `issue` and `wait`. -/
theorem test_ld_opnd :
    opSqrt 0x23#32 0x4444444433333333222222221111111F#128 =
      [.access (.write 0x00 4 0x1111111F#32), .access (.write 0x04 4 0x22222222#32),
       .access (.write 0x08 4 0x33333333#32), .access (.write 0x0C 4 0x44444444#32),
       .access (.write 0x30 4 0x23#32), .wait] := by
  decide +kernel

/-- The host runs a table word as the first command after reset. -/
theorem test_fetch_word :
    (after (step (State.reset.withFetchWord 32 0x00000124))).map (fun s => s.status.word) =
      some 0x02#32 := by
  decide +kernel

/-! ### Witnesses: states and operands that meet the hypotheses of the statements -/

/-- An idle unit after a completed command: every OPND and ROOT word written. -/
def idleDone : State := complete 3 none false (flight 0x00000000#32 9)

/-- A halted unit. -/
def haltedUnit : State := raiseFault .illegal 0x00000005#32 (flight 0x00000005#32 9)

theorem allWritten_words (w : Nat) : WordsWritten w allWritten := fun k _ => allWritten_get k

/-- The root and remainder by the library's square root meet the contract of a pair function at every width. -/
theorem witness_pair_contract (h : Nat) :
    PairContract h (fun x => (Nat.sqrt x, x - Nat.sqrt x * Nat.sqrt x)) := by
  intro x _ _
  exact ⟨⟨Nat.sqrt_le x, Nat.lt_succ_sqrt x⟩, rfl⟩

theorem witness_DecodeAfterEncode : Instr.isqrtremU128Kar.wf = true := by decide

theorem witness_EncodeAfterDecode : decode 0x00000324#32 = .ok .isqrtI128Kar := by decide

theorem witness_LegalWordsAreTheFifty : (0x00000124#32) ∈ allInstrs.map encode := by decide

/-- Both ends of the passes of n = 255 at W = 8 (j = 3 first, j = 0 last), and the smallest n. -/
theorem witness_BinLoopInvariant :
    8 ∈ widths ∧ 2 ≤ (255#8).toNat ∧ 3 ≤ evenDown (ilog2 (255#8).toNat) / 2 ∧
    0 ≤ evenDown (ilog2 (2#8).toNat) / 2 ∧ 2 ≤ (2#8).toNat ∧ 128 ∈ widths := by
  decide

theorem witness_BinSumNeverWraps :
    8 ∈ widths ∧ 2 ≤ (255#8).toNat ∧ (binLoop 0 (binStart 255#8)).one ≠ 0#8 ∧
    (binLoop 3 (binStart 255#8)).one ≠ 0#8 := by
  decide +kernel

theorem witness_BinPassCount :
    8 ∈ widths ∧ (1#8).toNat < 2 ∧ 2 ≤ (2#8).toNat ∧ 2 ^ (8 - 2) ≤ (64#8).toNat ∧
    ¬2 ^ (8 - 2) ≤ (63#8).toNat := by
  decide

theorem witness_BinEngineComputesIsqrt : 8 ∈ widths ∧ 128 ∈ widths := by decide

/-- The exact clause at its last n; the rounding one at 2^64 - 1, beside the largest significand; and a tie, whose other
value is 2^53 + 2: the conversion of 2^53 + 1 has the even significand. -/
theorem witness_ConversionRoundsToNearest :
    2 ^ 53 ≤ 2 ^ 53 ∧ 2 ^ 64 - 1 < 2 ^ 64 ∧ (F64.mk (2 ^ 53 - 1) 11).sig < 2 ^ 53 ∧
    2 ^ 53 + 1 < 2 ^ 64 ∧ (F64.mk (2 ^ 52 + 1) 1).sig < 2 ^ 53 ∧
    |((2 ^ 53 + 1 : ℕ) : ℚ) - f64Value (F64.ofNat (2 ^ 53 + 1))| =
      |((2 ^ 53 + 1 : ℕ) : ℚ) - f64Value ⟨2 ^ 52 + 1, 1⟩| ∧
    f64Value ⟨2 ^ 52 + 1, 1⟩ ≠ f64Value (F64.ofNat (2 ^ 53 + 1)) := by
  have h : F64.ofNat (2 ^ 53 + 1) = ⟨2 ^ 52, 1⟩ := by decide +kernel
  rw [h]
  refine ⟨by decide, by decide, by decide, by decide, by decide, ?_, ?_⟩ <;>
    norm_num [f64Value]

theorem witness_FpCandidateWithinOne :
    2 ^ 64 - 1 < 2 ^ 64 ∧ IsRoot (2 ^ 64 - 1) (2 ^ 32 - 1) ∧
    2 ^ 52 - 1 < 2 ^ 52 ∧ IsRoot (2 ^ 52 - 1) (2 ^ 26 - 1) ∧ IsRoot 0 0 := by
  decide +kernel

/-- The three candidates of n = 10 at W = 8, and the largest n at W = 64. -/
theorem witness_FpSmallComputesIsqrt :
    8 ∈ [8, 16, 32, 64] ∧ 10 < 2 ^ 8 ∧ IsRoot 10 3 ∧ 2 + 1 = 3 ∧ 3 = 3 ∧ 4 = 3 + 1 ∧
    64 ∈ [8, 16, 32, 64] ∧ 2 ^ 64 - 1 < 2 ^ 64 := by
  decide +kernel

theorem witness_KarStepPostcondition :
    16 ∈ [16, 32, 64, 128] ∧
    PairContract (16 / 2) (fun x => (Nat.sqrt x, x - Nat.sqrt x * Nat.sqrt x)) ∧
    2 ^ (16 - 2) ≤ 2 ^ 14 ∧ 2 ^ 14 < 2 ^ 16 ∧ 2 ^ (16 - 2) ≤ 2 ^ 16 - 1 ∧ 2 ^ 16 - 1 < 2 ^ 16 :=
  ⟨by decide, witness_pair_contract _, by decide, by decide, by decide, by decide⟩

/-- The smallest and the largest normalised m at W = 16, and one whose step takes the borrow branch. -/
theorem witness_KarIntermediatesFit :
    16 ∈ [16, 32, 64, 128] ∧
    PairContract (16 / 2) (fun x => (Nat.sqrt x, x - Nat.sqrt x * Nat.sqrt x)) ∧
    2 ^ (16 - 2) ≤ 0x4000 ∧ 0x4000 < 2 ^ 16 ∧ 2 ^ (16 - 2) ≤ 0xFFFF ∧ 0xFFFF < 2 ^ 16 ∧
    2 ^ (16 - 2) ≤ 0x4100 ∧ 0x4100 < 2 ^ 16 ∧
    (karVars 16 0x4100 tablePair).t < (karVars 16 0x4100 tablePair).q * (karVars 16 0x4100 tablePair).q :=
  ⟨by decide, witness_pair_contract _, by decide, by decide, by decide, by decide, by decide, by decide,
    by decide +kernel⟩

theorem witness_PreconditionShiftExact :
    8 ∈ widths ∧ 1 ≠ 0 ∧ 1 < 2 ^ 8 ∧ IsRoot (1 * 2 ^ evenDown (clz 8 1)) 8 ∧
    255 < 2 ^ 8 ∧ IsRoot (255 * 2 ^ evenDown (clz 8 255)) 15 := by
  decide

theorem witness_KarEngineComputesIsqrt :
    4 ≤ 4 ∧ 2 ^ 128 - 1 < 2 ^ levelBits 4 ∧ 128 ∈ [16, 32, 64, 128] ∧
    (∀ x < 2 ^ (128 / 2), IsRoot x (Nat.sqrt x)) ∧
    PairContract (128 / 2) (fun x => (Nat.sqrt x, x - Nat.sqrt x * Nat.sqrt x)) ∧
    2 ^ 128 - 1 < 2 ^ 128 :=
  ⟨by decide, by decide, by decide, fun x _ => ⟨Nat.sqrt_le x, Nat.lt_succ_sqrt x⟩,
    witness_pair_contract _, by decide⟩

/-- The widest command, and a 32-bit one of which only word 0 was written. -/
theorem witness_BinCommandsComplete :
    (Instr.isqrtU128Bin, 128) ∈ binCommands ∧ WordsWritten 128 (flight 4#32 9).lopndWritten ∧
    (Instr.isqrtU32Bin, 32) ∈ binCommands ∧
    WordsWritten 32 (halfWritten 0x00000002#32).lopndWritten := by
  refine ⟨by decide, allWritten_words _, by decide, ?_⟩
  intro k hk
  have hk0 : k.val = 0 := by omega
  obtain rfl : k = 0 := Fin.ext hk0
  decide

theorem witness_FpCommandsComplete :
    (Instr.isqrtU128Fp, 128) ∈ fpCommands ∧ (Instr.isqrtU8Fp, 8) ∈ fpCommands ∧
    WordsWritten 128 (flight 0x14#32 9).lopndWritten :=
  ⟨by decide, by decide, allWritten_words _⟩

theorem witness_KarCommandsComplete :
    (Instr.isqrtU128Kar, 128) ∈ karCommands ∧ (Instr.isqrtU8Kar, 8) ∈ karCommands ∧
    WordsWritten 128 (flight 0x24#32 9).lopndWritten :=
  ⟨by decide, by decide, allWritten_words _⟩

theorem witness_RemCommandsComplete :
    (Instr.isqrtremU128Kar, 128) ∈ remCommands ∧ (Instr.isqrtremU8Kar, 8) ∈ remCommands ∧
    WordsWritten 128 (flight 0x124#32 9).lopndWritten :=
  ⟨by decide, by decide, allWritten_words _⟩

/-- The largest non-negative operand and 0. -/
theorem witness_SignedNonNegativeCompletes :
    (Instr.chksqrtI8Bin, 8) ∈ checkedCommands ++ fatalCommands ∧
    (Instr.isqrtI128Kar, 128) ∈ checkedCommands ++ fatalCommands ∧
    WordsWritten 128 (flight 0x324#32 0).lopndWritten ∧ ¬Negative 8 (flight 0x200#32 0x7F) ∧
    ¬Negative 128 (flight 0x324#32 0) :=
  ⟨by decide, by decide, allWritten_words _, by unfold Negative; decide +kernel,
    by unfold Negative; decide +kernel⟩

/-- The most negative operand and -1. -/
theorem witness_CheckedNegativeIsAbsent :
    (Instr.chksqrtI8Bin, 8) ∈ checkedCommands ∧ (Instr.chksqrtI128Kar, 128) ∈ checkedCommands ∧
    WordsWritten 8 (flight 0x200#32 0x80).lopndWritten ∧ Negative 8 (flight 0x200#32 0x80) ∧
    WordsWritten 128 (flight 0x224#32 (2 ^ 128 - 1)).lopndWritten ∧
    Negative 128 (flight 0x224#32 (2 ^ 128 - 1)) :=
  ⟨by decide, by decide, allWritten_words _, by unfold Negative; decide +kernel, allWritten_words _,
    by unfold Negative; decide +kernel⟩

theorem witness_FatalNegativeFaultsDomain :
    (Instr.isqrtI8Fp, 8) ∈ fatalCommands ∧ (Instr.isqrtI128Kar, 128) ∈ fatalCommands ∧
    WordsWritten 8 (flight 0x310#32 0x80).lopndWritten ∧ Negative 8 (flight 0x310#32 0x80) ∧
    WordsWritten 128 (flight 0x324#32 (2 ^ 128 - 1)).lopndWritten ∧
    Negative 128 (flight 0x324#32 (2 ^ 128 - 1)) :=
  ⟨by decide, by decide, allWritten_words _, by unfold Negative; decide +kernel, allWritten_words _,
    by unfold Negative; decide +kernel⟩

/-- A command that ends in the DOMAIN fault and one that completes: the case of the statements whose hypothesis is that
`exec` answers a next state (DomainExactlyFatalNegative, ResultsDependOnOperandAlone, CommandFrame, UpperOperandBitsIgnored,
EveryRootIsIsqrt, SignedRootFits). -/
theorem witness_exec_next :
    (after (exec .isqrtI8Bin (flight 0x300#32 0x80))).map (fun t => t.engine) = some .halted ∧
    (after (exec .isqrtI8Bin (flight 0x300#32 0x7F))).map
      (fun t => (t.engine, t.status.absent, t.root)) = some (.idle, false, 11#128) ∧
    (after (exec .chksqrtI8Bin (flight 0x200#32 0x80))).map
      (fun t => (t.engine, t.status.absent)) = some (.idle, true) ∧
    (after (exec .isqrtremU16Kar (flight 0x121#32 300))).map (fun t => t.engine) = some .idle := by
  decide +kernel

/-- The first and the last word of an operand. -/
theorem witness_UnwrittenOperandStops :
    32 * (1 : Fin 4).val < Instr.isqrtU64Bin.shape.width.bits ∧
    (halfWritten 0x00000003#32).lopndWritten.get 1 = false ∧
    32 * (0 : Fin 4).val < Instr.isqrtU8Bin.shape.width.bits ∧ State.reset.lopndWritten.get 0 = false ∧
    32 * (3 : Fin 4).val < Instr.isqrtU128Bin.shape.width.bits := by
  decide

/-- The range clauses of EveryRootIsIsqrt at the ends of their ranges; `witness_exec_next` meets the first one. -/
theorem witness_EveryRootIsIsqrt :
    8 ∈ widths ∧ 255 < 2 ^ 8 ∧ IsRoot 255 15 ∧ 128 ∈ widths ∧ 2 ^ 128 - 1 < 2 ^ 128 ∧
    IsRoot (2 ^ 128 - 1) (2 ^ 64 - 1) := by
  decide

theorem witness_EngineChoiceInvisible :
    Instr.isqrtU64Bin.shape.op = Instr.isqrtU64Kar.shape.op ∧
    Instr.isqrtU64Bin.shape.width = Instr.isqrtU64Kar.shape.width := by
  decide

/-- Two states whose operands differ only above the width. -/
theorem witness_ResultsDependOnOperandAlone :
    operandOf Instr.isqrtU8Bin.shape.width.bits (flight 0#32 0x109) =
      operandOf Instr.isqrtU8Bin.shape.width.bits (flight 0#32 0x209) ∧
    (after (exec .isqrtU8Bin (flight 0#32 0x109))).isSome = true ∧
    (after (exec .isqrtU8Bin (flight 0#32 0x209))).isSome = true := by
  refine ⟨by unfold operandOf; decide +kernel, by decide +kernel, by decide +kernel⟩

theorem witness_UpperOperandBitsIgnored :
    ∀ k < Instr.isqrtU8Bin.shape.width.bits,
      (0x209#128).getLsbD k = (flight 0#32 0x109).lopnd.getLsbD k := by
  decide

theorem witness_SignedAgreesWithUnsigned :
    Instr.isqrtU8Fp.shape = ⟨.isqrtU, Instr.chksqrtI8Fp.shape.width, Instr.chksqrtI8Fp.shape.engine⟩ ∧
    Instr.chksqrtI8Fp.shape.op = .chksqrtI ∧
    Instr.isqrtI8Fp.shape = ⟨.isqrtI, Instr.chksqrtI8Fp.shape.width, Instr.chksqrtI8Fp.shape.engine⟩ ∧
    ¬Negative 8 (flight 0#32 0x7F) ∧ Negative 8 (flight 0#32 0x80) :=
  ⟨by decide, by decide, by decide, by unfold Negative; decide +kernel,
    by unfold Negative; decide +kernel⟩

/-- The engine moves when the host has nothing to do, and when the schedule names it; and a table word decodes. -/
theorem witness_StepRunsDecodedCommand :
    EngineMoves (flight 0x23#32 9) ∧
    EngineMoves { flight 0x23#32 9 with hostOps := [.wait], turns := [.engine] } ∧
    decode (flight 0x23#32 9).lcmd = .ok .isqrtU64Kar ∧
    decodeTableWord 32 0x00000023 = some .isqrtU64Kar :=
  ⟨⟨rfl, .inl rfl⟩, ⟨rfl, .inr (.inr ⟨[], rfl⟩)⟩, by decide, by decide⟩

/-- Words that break one condition each: RSV, WID, ENG, OP and ISQRTREM without KAR, each at its boundary. -/
theorem witness_IllegalWordFaults :
    ((0x00001000#32).extractLsb' 12 20 = 1#20) ∧ ((0x00000005#32).extractLsb' 0 4).toNat = 5 ∧
    ((0x00000030#32).extractLsb' 4 4).toNat = 3 ∧ ((0x00000400#32).extractLsb' 8 4).toNat = 4 ∧
    ((0x00000100#32).extractLsb' 8 4).toNat = 1 ∧ ((0x00000100#32).extractLsb' 4 4).toNat ≠ 2 := by
  decide

theorem witness_EngineStepPriority :
    decode (flight 0x00000005#32 9).lcmd = .illegal .reservedWid ∧
    decode (halfWritten 0x00000303#32).lcmd = .ok .isqrtI64Bin ∧
    ¬WordsWritten 64 (halfWritten 0x00000303#32).lopndWritten ∧
    decode (flight 0x300#32 0x80).lcmd = .ok .isqrtI8Bin ∧
    WordsWritten 8 (flight 0x300#32 0x80).lopndWritten ∧ Negative 8 (flight 0x300#32 0x80) ∧
    ¬Negative 8 (flight 0x300#32 0x7F) := by
  refine ⟨by decide, by decide, ?_, by decide, allWritten_words _, by unfold Negative; decide +kernel,
    by unfold Negative; decide +kernel⟩
  intro h
  exact absurd (h 1 (by decide)) (by decide)

/-- The reserved offsets at both ends, and a read that answers. -/
theorem witness_WindowReadMap :
    0x3C ≤ 0x3C ∧ 0x3C % 4 = 0 ∧ 0x3C ≤ 0xFC ∧ 0xFC % 4 = 0 ∧
    (after (performAccess (.read 0x10 4) idleDone)).isSome = true := by
  decide +kernel

theorem witness_LittleEndianWindow :
    idleDone.opndWritten.get 0 = true ∧ idleDone.rootWritten.get 3 = true ∧
    (complete 3 (some 1) false idleDone).remWritten.get 3 = true := by
  decide

theorem witness_WindowWriteMap :
    haltedUnit.status.halted = true ∧ idleDone.status.halted = false ∧ idleDone.engine = .idle ∧
    0x10 ≤ 0x10 ∧ (0x10 : Nat) ≠ 0x30 ∧ (0x2C : Nat) ≠ 0x30 ∧ (0x34 : Nat) ≠ 0x30 := by
  decide

theorem witness_CommandWriteEffect :
    (flight 4#32 9).status.halted = false ∧ (flight 4#32 9).engine = .busy ∧
    idleDone.status.halted = false ∧ idleDone.engine ≠ .busy := by
  decide

theorem witness_ProtocolAbandonsCommand :
    (flight 4#32 9).status.halted = false ∧ (flight 4#32 9).engine = .busy ∧
    Host.Core.run core 1 (memWrite 0x30 0#32 (flight 4#32 9)) =
      .next (memWrite 0x30 0#32 (flight 4#32 9)) :=
  ⟨rfl, rfl, run_next (k := 0) rfl⟩

theorem witness_HostAccessIsOneStep :
    HostMoves { State.reset with hostOps := [.access (.write 0xFC 4 0#32)] } ∧
    HostMoves { flight 4#32 9 with hostOps := [.access (.read 0x34 4)], turns := [.host] } ∧
    0xFC % 4 = 0 ∧ 0xFC + 4 ≤ 256 ∧ 0x34 % 4 = 0 ∧ 0x34 + 4 ≤ 256 ∧
    memRead 0x34 (flight 4#32 9) = some 1#32 :=
  ⟨.inl (by decide), .inr ⟨[], rfl⟩, by decide, by decide, by decide, by decide, by decide +kernel⟩

theorem witness_UnwrittenReadStops :
    HostMoves { State.reset with hostOps := [.access (.read (4 * (0 : Fin 4).val) 4)] } ∧
    HostMoves { State.reset with hostOps := [.access (.read (0x20 + 4 * (3 : Fin 4).val) 4)] } ∧
    State.reset.opndWritten.get 0 = false ∧ State.reset.rootWritten.get 0 = false ∧
    State.reset.remWritten.get 3 = false :=
  ⟨.inl (by decide), .inl (by decide), by decide, by decide, by decide⟩

/-- One access for each way not to be admitted, before an idle and before a busy unit; and the reserved offsets. -/
theorem witness_InadmissibleAccessIsStuck :
    ({ flight 4#32 9 with hostOps := [.access (.read 0x34 2)] } : State).hostOps =
      .access (.read 0x34 2) :: [] ∧
    ({ flight 4#32 9 with hostOps := [.access (.read 0x34 2)] } : State).engine = .busy ∧
    ({ State.reset with hostOps := [.access (.read 0x100 4)] } : State).engine ≠ .busy ∧
    (HostAccess.read 0x34 2).size ≠ 4 ∧ (HostAccess.write 0x32 4 0#32).offset % 4 ≠ 0 ∧
    (HostAccess.read (-4) 4).offset < 0 ∧
    256 < (HostAccess.read 0x100 4).offset + (HostAccess.read 0x100 4).size ∧
    ({ flight 4#32 9 with hostOps := [.poll (-4) 1#32 1#32] } : State).hostOps = .poll (-4) 1#32 1#32 :: [] ∧
    (HostOp.poll (-4) 1#32 1#32).wf = false ∧
    0x3C ≤ 0x3C ∧ 0xFC ≤ 0xFC ∧ 0xFC % 4 = 0 := by
  decide

theorem witness_WindowStandsAtBase :
    0 < 256 ∧ 255 < 256 ∧ Config.base + 256 ≤ Config.base + 256 :=
  ⟨by decide, by decide, Nat.le_refl _⟩

/-- An idle unit about to be given a command. -/
def issuing : State := { idleDone with hostOps := opIssue 4#32 }

/-- A busy unit about to be given another. -/
def reissuing : State := { flight 4#32 9 with hostOps := opIssue 0#32, turns := [.host] }

/-- A halted unit about to be read. -/
def readingHalted : State := { haltedUnit with hostOps := opLw 0x38 }

/-- An idle unit about to be read. -/
def readingIdle : State := { idleDone with hostOps := opLw 0x10 }

/-- A busy unit before a wait, with a schedule that gives the host two turns first. -/
def waiting : State := { flight 0#32 9 with hostOps := [.wait], turns := [.host, .host] }

theorem consistent_reset : State.reset.Consistent := by constructor <;> decide

/-- A consistent state of each engine state that steps: the CMD write of an idle unit, completion, the ILLEGAL fault,
PROTOCOL, and a read of a halted unit. -/
theorem witness_StepKeepsConsistent :
    (issuing.Consistent ∧ (after (step issuing)).map (fun t => t.engine) = some .busy) ∧
    ((flight 0#32 9).Consistent ∧ (after (step (flight 0#32 9))).map (fun t => t.engine) = some .idle) ∧
    ((flight 5#32 9).Consistent ∧ (after (step (flight 5#32 9))).map (fun t => t.engine) = some .halted) ∧
    (reissuing.Consistent ∧
      (after (step reissuing)).map (fun t => (t.engine, t.status.cause)) = some (.halted, .protocol)) ∧
    (readingHalted.Consistent ∧
      (after (step readingHalted)).map (fun t => (t.engine, t.hostReads)) =
        some (.halted, [0x00000005#32])) := by
  refine ⟨⟨?_, by decide +kernel⟩, ⟨?_, by decide +kernel⟩, ⟨?_, by decide +kernel⟩,
    ⟨?_, by decide +kernel⟩, ⟨?_, by decide +kernel⟩⟩ <;> constructor <;> decide

/-- The same five states, each in its clause; the CMD write and the PROTOCOL write are at 0x30. -/
theorem witness_EngineTransitions :
    issuing.engine = .idle ∧ issuing.hostOps = .access (.write 0x30 4 4#32) :: [] ∧
    (flight 0#32 9).engine = .busy ∧ reissuing.engine = .busy ∧
    reissuing.hostOps = .access (.write 0x30 4 0#32) :: [] ∧ readingHalted.engine = .halted := by
  decide

theorem witness_StepKeepsResultsFit :
    (flight 0#32 9).ResultsFit ∧
    (after (step (flight 0#32 9))).map (fun t => t.root.toNat) = some 3 :=
  ⟨⟨by decide +kernel, by decide +kernel⟩, by decide +kernel⟩

/-- A halted unit before a host that polls for DONE. -/
def pollingHalted : State := { haltedUnit with hostOps := opPollDone }

theorem witness_HaltedIsFinal :
    (pollingHalted.Consistent ∧ pollingHalted.status.halted = true ∧ pollingHalted.hostOps = opPollDone ++ []) ∧
    readingHalted.Consistent ∧ readingHalted.status.halted = true ∧
    (after (step readingHalted)).isSome = true ∧ 0 < 0x30 ∧ 0x2F < 0x30 ∧
    Fault.unwrittenRead ≠ .inadmissibleAccess ∧ Fault.unwrittenOperand ≠ .inadmissibleAccess :=
  ⟨⟨by constructor <;> decide, rfl, rfl⟩, by constructor <;> decide, by decide, by decide +kernel, by decide, by decide,
    by decide, by decide⟩

/-- R291: a poll for DONE ends on a completed unit, and goes round again on a halted one. -/
theorem test_poll_done :
    (after (step { idleDone with hostOps := opPollDone })).map (fun t => (t.hostOps, t.hostReads)) =
      some ([], [2#32]) ∧
    (after (step pollingHalted)).map (fun t => (t.hostOps, t.hostReads)) = some (opPollDone, [0x28#32]) := by
  decide +kernel

theorem witness_BothOrdersPossible :
    ({ flight 4#32 9 with hostOps := opLw 0x10 } : State).engine = .busy ∧
    ({ flight 4#32 9 with hostOps := opLw 0x10 } : State).hostOps =
      HostOp.access (.read 0x10 4) :: [] ∧
    (HostOp.access (.read 0x10 4)).wf = true := by
  decide

theorem witness_OpndWriteCommutesWithEngine :
    (after (engineStep (flight 0#32 9))).isSome = true ∧
    faultOf (engineStep (halfWritten 0x00000003#32)) = some .unwrittenOperand := by
  decide +kernel

/-- An idle unit and a halted one, each with a read to do. -/
theorem witness_ResultsStayVisible :
    (readingIdle.Consistent ∧ readingIdle.status.busy = false ∧
      (after (step readingIdle)).isSome = true ∧
      ∀ v rest, readingIdle.hostOps ≠ .access (.write 0x30 4 v) :: rest) ∧
    (readingHalted.Consistent ∧ readingHalted.status.busy = false ∧
      (after (step readingHalted)).isSome = true) := by
  refine ⟨⟨by constructor <;> decide, by decide, by decide +kernel, ?_⟩,
    by constructor <;> decide, by decide, by decide +kernel⟩
  intro v rest h
  simp [readingIdle, opLw] at h

/-- A wait that begins while BUSY; and one step of it polls and stays. -/
theorem witness_WaitEnds :
    waiting.Consistent ∧ waiting.engine = .busy ∧ waiting.hostOps = .wait :: [] ∧
    ∀ i, decode waiting.lcmd = .ok i → WordsWritten i.shape.width.bits waiting.lopndWritten :=
  ⟨by constructor <;> decide, rfl, rfl, fun _ _ => allWritten_words _⟩

/-- The smallest and the largest significand, and a value other than the root. -/
theorem witness_SquareRootCorrectlyRounded :
    (F64.mk 1 0).sig < 2 ^ 53 ∧ (F64.mk (2 ^ 53 - 1) 11).sig < 2 ^ 53 ∧
    f64Value ⟨3, 0⟩ ≠ f64Value (F64.sqrt ⟨1, 0⟩) := by
  have h : F64.sqrt ⟨1, 0⟩ = ⟨2 ^ 52, -52⟩ := by decide +kernel
  rw [h]
  exact ⟨by decide, by decide, by norm_num [f64Value]⟩

/-- A wait before an idle unit, and one before a busy unit with the host's turn first; a poll that ends, one that does
not, and one of an unwritten word. -/
theorem witness_WaitPollsOnce :
    HostMoves { idleDone with hostOps := [.wait] } ∧ idleDone.status.busy = false ∧
    HostMoves waiting ∧ waiting.hostOps = .wait :: [] ∧ waiting.status.busy = true ∧
    HostMoves { idleDone with hostOps := opPollDone } ∧ HostMoves pollingHalted ∧
    memRead 0x34 idleDone = some 2#32 ∧ 2#32 &&& 2#32 = 2#32 ∧
    memRead 0x34 pollingHalted = some 0x28#32 ∧ 0x28#32 &&& 2#32 ≠ 2#32 ∧
    HostMoves { State.reset with hostOps := [.poll 0x2C 1#32 1#32] } ∧ 0x2C % 4 = 0 ∧ 0x2C + 4 ≤ 256 ∧
    memRead 0x2C { State.reset with hostOps := [.poll 0x2C 1#32 1#32] } = none :=
  ⟨.inl (by decide), by decide, .inr ⟨[.host], rfl⟩, rfl, by decide, .inl (by decide), .inl (by decide),
    by decide +kernel, by decide, by decide +kernel, by decide, .inl (by decide), by decide, by decide, by decide⟩

/-- Reset with other bits in the registers the spec leaves unspecified. -/
theorem witness_UnwrittenContentsInvisible :
    State.reset.SameDefined
      { State.reset with opnd := 7#128, root := 5#128, rem := 3#128, lcmd := 9#32, lopnd := 1#128 } where
  opndWritten := rfl
  rootWritten := rfl
  remWritten := rfl
  opnd := fun k h => absurd h (by revert k; decide)
  root := fun k h => absurd h (by revert k; decide)
  rem := fun k h => absurd h (by revert k; decide)
  status := rfl
  fcmd := rfl
  engine := rfl
  latch := fun h => absurd h (by decide)
  hostOps := rfl
  hostReads := rfl
  turns := rfl

end Sys2Proof.Tests
end

section
/-! SUPPORT. Integer roots: the contract of R9 as the library's `Nat.sqrt`, how a root scales, and its bound (R10). -/

namespace Sys2Proof

/-- The contract of R9 has exactly one solution, the library's root. -/
theorem isRoot_iff_eq_sqrt {n r : Nat} : IsRoot n r ↔ r = Nat.sqrt n := Nat.eq_sqrt.symm

theorem isRoot_sqrt (n : Nat) : IsRoot n (Nat.sqrt n) := isRoot_iff_eq_sqrt.2 rfl

/-- A root has half as many bits as its operand (R10). -/
theorem sqrt_lt_two_pow {n w : Nat} (hw : w % 2 = 0) (hn : n < 2 ^ w) : Nat.sqrt n < 2 ^ (w / 2) := by
  rw [Nat.sqrt_lt, ← pow_add]
  rwa [show w / 2 + w / 2 = w by omega]

/-- A root of a w-bit operand has half as many bits (R10). -/
theorem isRoot_lt_two_pow {w n r : Nat} (hw : w % 2 = 0) (hn : n < 2 ^ w) (hr : IsRoot n r) : r < 2 ^ (w / 2) :=
  isRoot_iff_eq_sqrt.1 hr ▸ sqrt_lt_two_pow hw hn

/-- Dividing by a square divides the root by its side. -/
theorem sqrt_div_mul_self (n : Nat) {k : Nat} (hk : 0 < k) : Nat.sqrt (n / (k * k)) = Nat.sqrt n / k :=
  eq_of_forall_le_iff fun a => by
    rw [Nat.le_sqrt, Nat.le_div_iff_mul_le (Nat.mul_pos hk hk), Nat.le_div_iff_mul_le hk, Nat.le_sqrt,
      Nat.mul_mul_mul_comm]

/-- A root scaled by a square scales back exactly (R167). -/
theorem sqrt_mul_mul_self_div (n : Nat) {k : Nat} (hk : 0 < k) :
    Nat.sqrt (n * (k * k)) / k = Nat.sqrt n := by
  rw [← sqrt_div_mul_self _ hk, Nat.mul_div_cancel _ (Nat.mul_pos hk hk)]

end Sys2Proof
end

section
/-! SUPPORT. The pseudocode primitives on naturals (00_scope.md section 6): bounds on `ilog2`, `clz` and `even`. -/

namespace Sys2Proof.Machine

theorem evenDown_mod_two (k : Nat) : evenDown k % 2 = 0 := by unfold evenDown; omega

theorem two_mul_evenDown_div_two (k : Nat) : 2 * (evenDown k / 2) = evenDown k := by unfold evenDown; omega

theorem evenDown_le (k : Nat) : evenDown k ≤ k := Nat.sub_le _ _

theorem lt_evenDown_add_two (k : Nat) : k < evenDown k + 2 := by unfold evenDown; omega

theorem ilog2_lt_of_lt {n w : Nat} (h0 : n ≠ 0) (hn : n < 2 ^ w) : ilog2 n < w := (Nat.log2_lt h0).2 hn

/-- The weight `2^even(ilog2 n)` is at most n, and four times it exceeds n. -/
theorem two_pow_evenDown_ilog2 {n : Nat} (h0 : n ≠ 0) :
    2 ^ evenDown (ilog2 n) ≤ n ∧ n < 2 ^ (evenDown (ilog2 n) + 2) :=
  ⟨(Nat.pow_le_pow_right (by decide) (evenDown_le _)).trans (Nat.log2_self_le h0),
    Nat.lt_log2_self.trans_le (Nat.pow_le_pow_right (by decide) (lt_evenDown_add_two _))⟩

/-- A value with W/2 leading zeros or more fits in W/2 bits (R165). -/
theorem lt_of_half_le_clz {w n : Nat} (hw : w % 2 = 0) (hpos : 0 < w) (h : w / 2 ≤ clz w n) : n < 2 ^ (w / 2) := by
  by_cases h0 : n = 0
  · exact h0 ▸ Nat.two_pow_pos _
  · rw [clz, if_neg h0] at h
    exact (Nat.log2_lt h0).1 (show ilog2 n < w / 2 by omega)

/-- The precondition shift brings a nonzero value into the top quarter of its width (R167). -/
theorem precondition_shift_normalises {w n : Nat} (hw : w % 2 = 0) (h0 : n ≠ 0) (hn : n < 2 ^ w) :
    2 ^ (w - 2) ≤ n * 2 ^ evenDown (clz w n) ∧ n * 2 ^ evenDown (clz w n) < 2 ^ w := by
  have hlog := ilog2_lt_of_lt h0 hn
  have hclz : clz w n = w - (ilog2 n + 1) := if_neg h0
  have hle := evenDown_le (clz w n)
  have hlt := lt_evenDown_add_two (clz w n)
  constructor
  · calc 2 ^ (w - 2) ≤ 2 ^ (ilog2 n + evenDown (clz w n)) :=
          Nat.pow_le_pow_right (by decide) (by omega)
      _ = 2 ^ ilog2 n * 2 ^ evenDown (clz w n) := pow_add _ _ _
      _ ≤ n * 2 ^ evenDown (clz w n) := Nat.mul_le_mul_right _ (Nat.log2_self_le h0)
  · calc n * 2 ^ evenDown (clz w n) < 2 ^ (ilog2 n + 1) * 2 ^ evenDown (clz w n) :=
          Nat.mul_lt_mul_of_pos_right Nat.lt_log2_self (Nat.two_pow_pos _)
      _ = 2 ^ (ilog2 n + 1 + evenDown (clz w n)) := (pow_add _ _ _).symm
      _ ≤ 2 ^ w := Nat.pow_le_pow_right (by decide) (by omega)

end Sys2Proof.Machine
end

section
/-! SUPPORT. The BIN engine computes the root: what its three variables hold before and after every pass (R121), over
naturals, so that no pass of R120 wraps (R122). -/

namespace Sys2Proof.Machine

/-- The variables of R120 when j digits are still to be found: the weight is that of digit j - 1, or 0 when there is none;
`res` and `op` are those of the root of n without its low 2j bits (R121). -/
structure BinAt {w : Nat} (n j : Nat) (v : BinRegs w) : Prop where
  one : v.one.toNat = 4 ^ j / 4
  res : v.res.toNat = Nat.sqrt (n / 4 ^ j) * 4 ^ j
  op  : v.op.toNat = n - Nat.sqrt (n / 4 ^ j) ^ 2 * 4 ^ j

/-- The next root bit is 1 exactly when the trial square of R121 fits, and else the root is only doubled. -/
theorem sqrt_next_bit (n j : Nat) :
    Nat.sqrt (n / 4 ^ j) =
      if (2 * Nat.sqrt (n / 4 ^ (j + 1)) + 1) ^ 2 * 4 ^ j ≤ n then 2 * Nat.sqrt (n / 4 ^ (j + 1)) + 1
      else 2 * Nat.sqrt (n / 4 ^ (j + 1)) := by
  have hpos : 0 < 4 ^ j := by positivity
  have hhalf : Nat.sqrt (n / 4 ^ (j + 1)) = Nat.sqrt (n / 4 ^ j) / 2 := by
    rw [pow_succ, ← Nat.div_div_eq_div_mul]
    exact sqrt_div_mul_self (n / 4 ^ j) (k := 2) (by decide)
  have hbit : (2 * Nat.sqrt (n / 4 ^ (j + 1)) + 1) ^ 2 * 4 ^ j ≤ n ↔
      2 * Nat.sqrt (n / 4 ^ (j + 1)) + 1 ≤ Nat.sqrt (n / 4 ^ j) := by
    rw [Nat.le_sqrt', Nat.le_div_iff_mul_le hpos]
  simp only [hbit]
  split <;> omega

/-- The root found so far, squared at its weight, never exceeds n. -/
theorem four_mul_sqrt_sq_le (n j : Nat) : 4 * Nat.sqrt (n / 4 ^ (j + 1)) ^ 2 * 4 ^ j ≤ n :=
  calc 4 * Nat.sqrt (n / 4 ^ (j + 1)) ^ 2 * 4 ^ j = Nat.sqrt (n / 4 ^ (j + 1)) ^ 2 * 4 ^ (j + 1) := by ring
    _ ≤ n := (Nat.le_div_iff_mul_le (by positivity)).1 (Nat.sqrt_le' _)

/-- The sum of R120 does not wrap in w bits: `res + one` is `(4p + 1) * 4^j` with p the root found so far (R122). -/
theorem bin_sum_lt {w n j : Nat} (hn : n < 2 ^ w) (hone : 4 ^ j < 2 ^ w) :
    (4 * Nat.sqrt (n / 4 ^ (j + 1)) + 1) * 4 ^ j < 2 ^ w := by
  have hquad := four_mul_sqrt_sq_le n j
  generalize Nat.sqrt (n / 4 ^ (j + 1)) = p at hquad ⊢
  match p with
  | 0 => simpa using hone
  | 1 =>
    have h4 : 2 ^ (2 * (j + 1)) < 2 ^ w := by
      rw [pow_mul, pow_succ]
      change 4 ^ j * 4 < 2 ^ w
      linarith
    have hw : 2 * (j + 1) < w := (Nat.pow_lt_pow_iff_right (by decide)).1 h4
    calc (4 * 1 + 1) * 4 ^ j < 8 * 4 ^ j := Nat.mul_lt_mul_of_pos_right (by decide) (by positivity)
      _ = 2 ^ (2 * j + 3) := by rw [pow_add, pow_mul]; exact Nat.mul_comm _ _
      _ ≤ 2 ^ w := Nat.pow_le_pow_right (by decide) (by omega)
  | q + 2 =>
    have hlin : 4 * (q + 2) + 1 ≤ 4 * (q + 2) ^ 2 := by nlinarith
    exact ((Nat.mul_le_mul_right _ hlin).trans hquad).trans_lt hn

section BeforePass

variable {w n j : Nat} {v : BinRegs w}

/-- Before the pass for digit j the weight is `4^j`. -/
theorem BinAt.one_eq (h : BinAt n (j + 1) v) : v.one.toNat = 4 ^ j := by
  rw [h.one, pow_succ, Nat.mul_div_cancel _ (by decide)]

theorem BinAt.res_eq (h : BinAt n (j + 1) v) : v.res.toNat = 4 * Nat.sqrt (n / 4 ^ (j + 1)) * 4 ^ j := by
  rw [h.res, pow_succ 4 j]
  ring

theorem BinAt.op_eq (h : BinAt n (j + 1) v) : v.op.toNat = n - 4 * Nat.sqrt (n / 4 ^ (j + 1)) ^ 2 * 4 ^ j := by
  rw [h.op, pow_succ 4 j]
  congr 1
  ring

/-- The sum of a pass as a natural: it does not wrap (R122). -/
theorem BinAt.toNat_sum (hn : n < 2 ^ w) (h : BinAt n (j + 1) v) :
    (v.res + v.one).toNat = (4 * Nat.sqrt (n / 4 ^ (j + 1)) + 1) * 4 ^ j := by
  have hlt := bin_sum_lt hn (h.one_eq ▸ v.one.isLt)
  rw [BitVec.toNat_add, h.res_eq, h.one_eq, ← Nat.succ_mul, Nat.mod_eq_of_lt hlt]

/-- The comparison of a pass is the trial square of R121. -/
theorem BinAt.sum_le_op_iff (hn : n < 2 ^ w) (h : BinAt n (j + 1) v) :
    v.res + v.one ≤ v.op ↔ (2 * Nat.sqrt (n / 4 ^ (j + 1)) + 1) ^ 2 * 4 ^ j ≤ n := by
  rw [BitVec.le_def, h.toNat_sum hn, h.op_eq, Nat.le_sub_iff_add_le (four_mul_sqrt_sq_le n j)]
  ring_nf

theorem BinAt.toNat_res_half (h : BinAt n (j + 1) v) :
    (v.res >>> 1).toNat = 2 * Nat.sqrt (n / 4 ^ (j + 1)) * 4 ^ j := by
  rw [BitVec.toNat_ushiftRight, h.res_eq, Nat.shiftRight_eq_div_pow]
  exact Nat.div_eq_of_eq_mul_left (by decide) (by ring)

theorem BinAt.toNat_one_quarter (h : BinAt n (j + 1) v) : (v.one >>> 2).toNat = 4 ^ j / 4 := by
  rw [BitVec.toNat_ushiftRight, h.one_eq, Nat.shiftRight_eq_div_pow]

/-- One pass finds one digit (R121). -/
theorem binAt_binPass (hn : n < 2 ^ w) (h : BinAt n (j + 1) v) : BinAt n j (binPass v) := by
  have hbit := sqrt_next_bit n j
  unfold binPass
  split
  · next hc =>
    rw [if_pos ((h.sum_le_op_iff hn).1 hc)] at hbit
    refine ⟨h.toNat_one_quarter, ?_, ?_⟩
    · have hval : (v.res >>> 1).toNat + v.one.toNat = Nat.sqrt (n / 4 ^ j) * 4 ^ j := by
        rw [h.toNat_res_half, h.one_eq, hbit]
        ring
      have hle : (v.res >>> 1).toNat + v.one.toNat ≤ (v.res + v.one).toNat := by
        rw [h.toNat_res_half, h.one_eq, h.toNat_sum hn]
        linarith [Nat.zero_le (Nat.sqrt (n / 4 ^ (j + 1)) * 4 ^ j)]
      rw [BitVec.toNat_add, Nat.mod_eq_of_lt (hle.trans_lt (BitVec.isLt _)), hval]
    · rw [BitVec.toNat_sub_of_le hc, h.toNat_sum hn, h.op_eq, hbit, Nat.sub_sub]
      congr 1
      ring
  · next hc =>
    rw [if_neg ((h.sum_le_op_iff hn).not.1 hc)] at hbit
    refine ⟨h.toNat_one_quarter, by rw [h.toNat_res_half, hbit], ?_⟩
    rw [h.op_eq, hbit]
    congr 1
    ring

end BeforePass

/-- k turns of the loop find k digits, or all there are (R121, R129). -/
theorem binAt_binLoop {w n : Nat} (hn : n < 2 ^ w) (k : Nat) :
    ∀ {j : Nat} {v : BinRegs w}, BinAt n j v → BinAt n (j - k) (binLoop k v) := by
  induction k with
  | zero => exact fun h => h
  | succ k ih =>
    intro j v h
    cases j with
    | zero =>
      have hzero : v.one = 0#w := BitVec.eq_of_toNat_eq (by rw [h.one, BitVec.toNat_zero]; rfl)
      simpa [binLoop, hzero] using h
    | succ j =>
      have hne : v.one ≠ 0#w := by
        rw [Ne, ← BitVec.toNat_inj, h.one_eq, BitVec.toNat_zero]
        positivity
      simpa [binLoop, hne] using ih (binAt_binPass hn h)

/-- Before the first pass every digit is to be found (R120, C1). -/
theorem binAt_binStart {w : Nat} {n : BitVec w} (h0 : n.toNat ≠ 0) :
    BinAt n.toNat (evenDown (ilog2 n.toNat) / 2 + 1) (binStart n) := by
  obtain ⟨hle, hlt⟩ := two_pow_evenDown_ilog2 h0
  have hpow : 4 ^ (evenDown (ilog2 n.toNat) / 2 + 1) = 2 ^ (evenDown (ilog2 n.toNat) + 2) := by
    rw [← two_mul_evenDown_div_two (ilog2 n.toNat), ← Nat.mul_succ, Nat.pow_mul]
    simp
  have hzero : Nat.sqrt (n.toNat / 4 ^ (evenDown (ilog2 n.toNat) / 2 + 1)) = 0 := by
    rw [hpow, Nat.div_eq_of_lt hlt, Nat.sqrt_zero]
  refine ⟨?_, by simp [binStart, hzero], by simp [binStart, hzero]⟩
  rw [binStart, BitVec.toNat_ofNat, Nat.mod_eq_of_lt (hle.trans_lt n.isLt), hpow, pow_add]
  exact (Nat.mul_div_cancel _ (by decide)).symm

/-- R123: at every even width the BIN engine computes the root. -/
theorem toNat_binIsqrt {w : Nat} (hw : w % 2 = 0) (n : BitVec w) : (binIsqrt n).toNat = Nat.sqrt n.toNat := by
  unfold binIsqrt
  split
  · next hsmall =>
    obtain h | h : n.toNat = 0 ∨ n.toNat = 1 := by omega
    all_goals simp [h]
  · next hbig =>
    have h0 : n.toNat ≠ 0 := by omega
    have hlog := ilog2_lt_of_lt h0 n.isLt
    have hle := evenDown_le (ilog2 n.toNat)
    have heven := evenDown_mod_two (ilog2 n.toNat)
    have hend := (binAt_binLoop n.isLt (w / 2) (binAt_binStart h0)).res
    rw [Nat.sub_eq_zero_of_le (by omega)] at hend
    simpa using hend

theorem binEngine_eq_sqrt {w n : Nat} (hw : w % 2 = 0) (hn : n < 2 ^ w) : binEngine w n = Nat.sqrt n := by
  rw [binEngine, toNat_binIsqrt hw, BitVec.toNat_ofNat, Nat.mod_eq_of_lt hn]

end Sys2Proof.Machine
end

section
/-! SUPPORT. The KAR engine computes the root: one Karatsuba step over any half-width pair function that meets its
contract (R161, R164), the recursion and its base table (R110, R160, R163), and the top level with its precondition shift
(R165, R167, R175). -/

namespace Sys2Proof.Machine

open Sys2Proof.Claims

/-- The pair a with-remainder function is to return (R175). -/
def IsRootRem (n : Nat) (p : Nat × Nat) : Prop := p = (Nat.sqrt n, n - Nat.sqrt n * Nat.sqrt n)

theorem IsRootRem.fst {n : Nat} {p : Nat × Nat} (h : IsRootRem n p) : p.1 = Nat.sqrt n := by rw [h]

theorem isRootRem_of_isRoot {n r : Nat} (h : IsRoot n r) : IsRootRem n (r, n - r * r) := by
  obtain rfl := isRoot_iff_eq_sqrt.1 h
  rfl

/-- The contract of a pair function, through the library's root (R145, R161). -/
theorem pairContract_iff {h : Nat} {halfRem : Nat → Nat × Nat} :
    PairContract h halfRem ↔ ∀ x, 2 ^ (h - 2) ≤ x → x < 2 ^ h → IsRootRem x (halfRem x) := by
  unfold PairContract IsRootRem
  refine forall₃_congr fun x _ _ => ?_
  rw [isRoot_iff_eq_sqrt, Prod.ext_iff]
  exact and_congr_right fun e => by rw [e]

/-- What the intermediate values of a step satisfy when its half-width pair is right, with B = 2^(W/4) (R161, R162):
the operand is `s*s - q*q + t`, and the quotient is at most B. -/
structure KarVars.Sound (B m : Nat) (v : KarVars) : Prop where
  half   : B ≤ 2 * v.s1
  root   : v.s = v.s1 * B + v.q
  square : m + v.q * v.q = v.s * v.s + v.t
  rest   : v.t < 2 * v.s1 * B
  quot   : v.q ≤ B

/-- The division of step 5 makes `m + q*q = s*s + t` (R164). -/
theorem karatsuba_square {B s1 r1 l1 l0 q u : Nat} (hdiv : 2 * s1 * q + u = r1 * B + l1) :
    (s1 * s1 + r1) * (B * B) + (l1 * B + l0) + q * q = (s1 * B + q) * (s1 * B + q) + (u * B + l0) := by
  have h : (2 * s1 * q + u) * B = (r1 * B + l1) * B := by rw [hdiv]
  linarith

/-- The high half of a normalised operand is normalised (R161). -/
theorem high_half_normalised {w m : Nat} (hw : w % 4 = 0) (hpos : 0 < w) (hlo : 2 ^ (w - 2) ≤ m) (hhi : m < 2 ^ w) :
    2 ^ (w / 2 - 2) ≤ m / 2 ^ (w / 2) ∧ m / 2 ^ (w / 2) < 2 ^ (w / 2) := by
  rw [Nat.le_div_iff_mul_le (by positivity), Nat.div_lt_iff_lt_mul (by positivity), ← pow_add, ← pow_add]
  exact ⟨(congrArg (2 ^ ·) (by omega)).trans_le hlo, hhi.trans_eq (congrArg (2 ^ ·) (by omega))⟩

/-- The root of a normalised operand is at least half its bound (R162). -/
theorem two_pow_le_root {h x r : Nat} (hh : h % 2 = 0) (hpos : 0 < h) (hx : 2 ^ (h - 2) ≤ x) (hr : IsRoot x r) :
    2 ^ (h / 2 - 1) ≤ r := by
  refine Nat.lt_succ_iff.1 (Nat.mul_self_lt_mul_self_iff.1 (lt_of_le_of_lt ?_ hr.2))
  rw [← pow_add]
  exact (congrArg (2 ^ ·) (by omega)).trans_le hx

/-- A step of a normalised operand whose half-width pair is right is sound (R161). -/
theorem karVars_sound {w m : Nat} (hw : w % 4 = 0) (hpos : 0 < w) {halfRem : Nat → Nat × Nat}
    (hc : PairContract (w / 2) halfRem) (hlo : 2 ^ (w - 2) ≤ m) (hhi : m < 2 ^ w) :
    (karVars w m halfRem).Sound (2 ^ (w / 4)) m := by
  have hsplit : 2 ^ (w / 2) = 2 ^ (w / 4) * 2 ^ (w / 4) := by rw [← pow_add]; congr 1; omega
  have hdouble : 2 * 2 ^ (w / 4 - 1) = 2 ^ (w / 4) := by rw [← pow_succ']; congr 1; omega
  obtain ⟨hi_ge, hi_lt⟩ := high_half_normalised hw hpos hlo hhi
  obtain ⟨hroot, hrem⟩ := hc _ hi_ge hi_lt
  have hs1 := two_pow_le_root (by omega) (by omega) hi_ge hroot
  rw [show w / 2 / 2 = w / 4 by omega] at hs1
  obtain ⟨hle, hlt⟩ := hroot
  have hm := Nat.div_add_mod m (2 ^ (w / 2))
  have hl := Nat.div_add_mod (m % 2 ^ (w / 2)) (2 ^ (w / 4))
  have hl1 : m % 2 ^ (w / 2) / 2 ^ (w / 4) < 2 ^ (w / 4) := by
    rw [Nat.div_lt_iff_lt_mul (by positivity), ← hsplit]
    exact Nat.mod_lt _ (by positivity)
  have hl0 : m % 2 ^ (w / 2) % 2 ^ (w / 4) < 2 ^ (w / 4) := Nat.mod_lt _ (by positivity)
  have hdiv := karVars_division w m halfRem
  have hB : 0 < 2 ^ (w / 4) := by positivity
  simp only [karVars] at hdiv ⊢
  rw [hsplit] at *
  generalize 2 ^ (w / 4) = B at *
  generalize m / (B * B) = hi at *
  generalize m % (B * B) = lo at *
  generalize (halfRem hi).1 = s1 at *
  generalize (halfRem hi).2 = r1 at *
  generalize lo / B = l1 at *
  generalize lo % B = l0 at *
  have hden : 0 < 2 * s1 := by omega
  have hu : (r1 * B + l1) % (2 * s1) < 2 * s1 := Nat.mod_lt _ hden
  have hhi' : hi = s1 * s1 + r1 := by omega
  have hr1 : r1 ≤ 2 * s1 := by linarith
  refine ⟨(by omega : B ≤ 2 * s1), rfl, ?_, ?_, ?_⟩ <;> dsimp only
  · have := karatsuba_square (l0 := l0) hdiv
    rw [← hm, ← hl, hhi', ← this]
    ring
  · calc (r1 * B + l1) % (2 * s1) * B + l0 < ((r1 * B + l1) % (2 * s1) + 1) * B := by linarith
      _ ≤ 2 * s1 * B := Nat.mul_le_mul_right B hu
  · refine Nat.lt_succ_iff.1 ((Nat.div_lt_iff_lt_mul hden).2 ?_)
    linarith [Nat.mul_le_mul_right B hr1]

/-- R161, R164: the correction leaves the root and its remainder. -/
theorem isRootRem_karCombine {B m : Nat} {v : KarVars} (hv : v.Sound B m) : IsRootRem m (karCombine v) := by
  obtain ⟨hhalf, hroot, hsquare, hrest, hquot⟩ := hv
  have key : ∀ r e, m = r * r + e → e ≤ 2 * r → IsRootRem m (r, e) := by
    rintro r e rfl he
    have := isRootRem_of_isRoot (n := r * r + e) (r := r) ⟨Nat.le_add_right _ _, by linarith⟩
    rwa [Nat.add_sub_cancel_left] at this
  rcases karCombine_cases v with ⟨hle, he⟩ | ⟨hlt, he⟩ <;> rw [he]
  · exact key _ _ (by omega) (Nat.sub_le_of_le_add (by linarith [Nat.zero_le v.q, Nat.zero_le (v.q * v.q)]))
  · have hq : 0 < v.q := Nat.pos_of_ne_zero fun h => by simp [h] at hlt
    have hBB : B * B ≤ 2 * (v.s1 * B) := by linarith [Nat.mul_le_mul_right B hhalf]
    have hqq : v.q * v.q ≤ B * B := Nat.mul_le_mul hquot hquot
    obtain ⟨s', hs'⟩ : ∃ s', v.s = s' + 1 := ⟨v.s - 1, by omega⟩
    have hexp : v.s * v.s = s' * s' + 2 * s' + 1 := by rw [hs']; ring
    rw [hs'] at hroot ⊢
    exact key _ _ (by rw [Nat.add_sub_cancel]; omega) (by omega)

/-- R161's postcondition: a step of a normalised operand returns its root and remainder. -/
theorem isRootRem_karStep {w m : Nat} (hw : w % 4 = 0) (hpos : 0 < w) {halfRem : Nat → Nat × Nat}
    (hc : PairContract (w / 2) halfRem) (hlo : 2 ^ (w - 2) ≤ m) (hhi : m < 2 ^ w) :
    IsRootRem m (karStep w m halfRem) :=
  isRootRem_karCombine (karVars_sound hw hpos hc hlo hhi)

/-- The step of a precondition-shifted operand, whose root scales back to the operand's own (R165, R167). -/
theorem isRootRem_karStep_shifted {w n : Nat} (hw : w % 4 = 0) (hpos : 0 < w) {halfRem : Nat → Nat × Nat}
    (hc : PairContract (w / 2) halfRem) (h0 : n ≠ 0) (hn : n < 2 ^ w) :
    IsRootRem (n * 2 ^ evenDown (clz w n)) (karStep w (n * 2 ^ evenDown (clz w n)) halfRem) ∧
      (karStep w (n * 2 ^ evenDown (clz w n)) halfRem).1 / 2 ^ (evenDown (clz w n) / 2) = Nat.sqrt n := by
  obtain ⟨hlo, hhi⟩ := precondition_shift_normalises (by omega) h0 hn
  have hstep := isRootRem_karStep hw hpos hc hlo hhi
  refine ⟨hstep, ?_⟩
  have hpow : 2 ^ evenDown (clz w n) = 2 ^ (evenDown (clz w n) / 2) * 2 ^ (evenDown (clz w n) / 2) := by
    rw [← pow_add, ← two_mul, two_mul_evenDown_div_two]
  rw [hstep.fst, ← sqrt_mul_mul_self_div n (Nat.two_pow_pos (evenDown (clz w n) / 2)), ← hpow]

/-- An operand that does not fit in half its width is not 0 (R165). -/
theorem ne_zero_of_clz_lt_half {w n : Nat} (h : ¬w / 2 ≤ clz w n) : n ≠ 0 := by
  rintro rfl
  exact h (by simp [clz, Nat.div_le_self])

/-- R165, R166: the top level computes the root over half-width functions that do. -/
theorem karTop_eq_sqrt {w n : Nat} (hw : w % 4 = 0) (hpos : 0 < w) {half : Nat → Nat}
    {halfRem : Nat → Nat × Nat} (hhalf : ∀ x < 2 ^ (w / 2), half x = Nat.sqrt x)
    (hc : PairContract (w / 2) halfRem) (hn : n < 2 ^ w) : karTop w n half halfRem = Nat.sqrt n := by
  unfold karTop
  split
  · next h =>
    have hlt := lt_of_half_le_clz (by omega) hpos h
    rw [truncTo, Nat.mod_eq_of_lt hlt, hhalf n hlt]
  · next h => exact (isRootRem_karStep_shifted hw hpos hc (ne_zero_of_clz_lt_half h) hn).2

/-- The base table holds the root and remainder of every index (R110, R160). -/
theorem isRootRem_tablePair {n : Nat} (hn : n < 2 ^ 8) : IsRootRem n (tablePair n) := by
  have table : ∀ i < 2 ^ 8, IsRoot i (tablePair i).1 ∧ (tablePair i).2 = i - (tablePair i).1 * (tablePair i).1 := by
    decide +kernel
  obtain ⟨hroot, hrem⟩ := table n hn
  have := isRootRem_of_isRoot hroot
  rwa [← hrem] at this

theorem levelBits_succ (l : Nat) : levelBits (l + 1) = 2 * levelBits l := by
  unfold levelBits; rw [pow_succ]; ring

theorem levelBits_pos (l : Nat) : 0 < levelBits l := by unfold levelBits; positivity

/-- The width of a level above the base is a multiple of 4, and half of it is the width below (R169). -/
theorem levelBits_succ_div (l : Nat) : levelBits (l + 1) % 4 = 0 ∧ levelBits (l + 1) / 2 = levelBits l := by
  have : levelBits l = 8 * 2 ^ l := rfl
  have := levelBits_succ l
  omega

/-- R163: the recursion on normalised values meets the contract of a pair function at every level. -/
theorem pairContract_karSqrtRemN (l : Nat) : PairContract (levelBits l) (karSqrtRemN l) := by
  rw [pairContract_iff]
  induction l with
  | zero => exact fun x _ hx => isRootRem_tablePair hx
  | succ l ih =>
    obtain ⟨hmod, hhalf⟩ := levelBits_succ_div l
    exact fun x hlo hhi => isRootRem_karStep hmod (levelBits_pos _) (hhalf ▸ pairContract_iff.2 ih) hlo hhi

/-- R166: the KAR engine computes the root at every level. -/
theorem karIsqrt_eq_sqrt (l : Nat) : ∀ n < 2 ^ levelBits l, karIsqrt l n = Nat.sqrt n := by
  induction l with
  | zero => exact fun n hn => (isRootRem_tablePair hn).fst
  | succ l ih =>
    obtain ⟨hmod, hhalf⟩ := levelBits_succ_div l
    exact fun n hn => karTop_eq_sqrt hmod (levelBits_pos _) (hhalf ▸ ih) (hhalf ▸ pairContract_karSqrtRemN l) hn

/-- R175: the with-remainder variant computes the root and the remainder at every level. -/
theorem isRootRem_karIsqrtRem (l : Nat) : ∀ n < 2 ^ levelBits l, IsRootRem n (karIsqrtRem l n) := by
  induction l with
  | zero => exact fun n hn => isRootRem_tablePair hn
  | succ l ih =>
    intro n hn
    obtain ⟨hmod, hhalf⟩ := levelBits_succ_div l
    simp only [karIsqrtRem, hhalf]
    split
    · next h =>
      have hlt := lt_of_half_le_clz (by omega) (levelBits_pos _) (hhalf ▸ h)
      rw [hhalf] at hlt
      rw [truncTo, Nat.mod_eq_of_lt hlt]
      exact ih n hlt
    · next h =>
      obtain ⟨hstep, hroot⟩ := isRootRem_karStep_shifted hmod (levelBits_pos _)
        (hhalf ▸ pairContract_karSqrtRemN l) (ne_zero_of_clz_lt_half (hhalf ▸ h)) hn
      split
      · next hk => simpa [hk] using hstep
      · next hk =>
        rw [hroot]
        rfl

end Sys2Proof.Machine
end

section
/-! SUPPORT. The FP engine computes the root: the candidate of R141 is within one of it (R146), and one correction step
finds it (R143). The binary64 facts are the model's reading of IEEE 754 (log entry 12). -/

namespace Sys2Proof.Machine

open Sys2Proof.Claims

/-- Choosing the k lowest bits from the highest down finds the root, once the bits above are right. -/
theorem floorRoot_eq_sqrt (k : Nat) : ∀ {x r : Nat}, r * r ≤ x → x < (r + 2 ^ k) * (r + 2 ^ k) →
    floorRoot k x r = Nat.sqrt x := by
  induction k with
  | zero => exact fun hle hlt => Nat.eq_sqrt.2 ⟨hle, hlt⟩
  | succ k ih =>
    intro x r hle hlt
    rw [floorRoot]
    split
    · next hc => exact ih hc (by rwa [Nat.add_assoc, ← Nat.two_mul, ← pow_succ'])
    · next hc => exact ih hle (Nat.lt_of_not_le hc)

theorem trunc_of_nonneg (m e : Nat) : (F64.mk m e).trunc = m * 2 ^ e := by simp [F64.trunc]

theorem trunc_of_nonpos (m d : Nat) : (F64.mk m (-d)).trunc = m / 2 ^ d := by
  cases d with
  | zero => simp [F64.trunc]
  | succ d =>
    have h : ¬(0 : Int) ≤ -((d + 1 : Nat) : Int) := by omega
    rw [F64.trunc, if_neg h, Int.neg_neg, Int.toNat_natCast]

/-- Renormalising a rounded significand keeps what the value truncates to. -/
theorem trunc_ofRounded (m : Nat) (e : Int) : (F64.ofRounded m e).trunc = (F64.mk m e).trunc := by
  unfold F64.ofRounded
  split
  · next h =>
    subst h
    obtain ⟨d, rfl | rfl⟩ := e.eq_nat_or_neg
    · rw [trunc_of_nonneg, show (d : Int) + 1 = (d + 1 : Nat) by omega, trunc_of_nonneg, pow_succ' 2 d, ← mul_assoc,
          ← pow_succ]
    · cases d with
      | zero => rfl
      | succ d =>
        rw [trunc_of_nonpos, show -((d + 1 : Nat) : Int) + 1 = -d by omega, trunc_of_nonpos, pow_succ 2 d]
        exact (Nat.mul_div_mul_right (2 ^ 52) (2 ^ d) (by decide)).symm
  · rfl

/-! #### The root of a binary64 value -/

/-- The integer nearest to the root of x, as `F64.sqrt` rounds it. -/
def nearestSqrt (x : Nat) : Nat :=
  if Nat.sqrt x * Nat.sqrt x + Nat.sqrt x < x then Nat.sqrt x + 1 else Nat.sqrt x

/-- The square of a rounded root exceeds x by less than the root itself, and the next square exceeds x. -/
theorem nearestSqrt_bounds (x : Nat) :
    nearestSqrt x * nearestSqrt x ≤ x + nearestSqrt x ∧ x < (nearestSqrt x + 1) * (nearestSqrt x + 1) := by
  have hle := Nat.sqrt_le x
  have hlt := Nat.sqrt_lt.1 (Nat.lt_succ_self (Nat.sqrt x))
  unfold nearestSqrt
  generalize Nat.sqrt x = k at *
  split <;> constructor <;> linarith

/-- The bounds of a rounded root of a scaled value, brought back to the scale of the value. -/
theorem scaled_sqrt_bounds {n m D : Nat} (hD : 0 < D) (hle : m * m ≤ n * (D * D) + m)
    (hlt : n * (D * D) < (m + 1) * (m + 1)) :
    (m / D) * (m / D) * D ≤ n * D + m / D ∧ n < (m / D + 1) * (m / D + 1) := by
  have hcm : m / D * D ≤ m := Nat.div_mul_le_self m D
  have hmc : m + 1 ≤ (m / D + 1) * D := by rw [Nat.mul_comm]; exact Nat.lt_mul_div_succ m hD
  generalize m / D = c at *
  constructor
  · obtain ⟨k, rfl⟩ := Nat.exists_eq_add_of_le hcm
    refine Nat.le_of_mul_le_mul_right ?_ hD
    have hk : k ≤ k * k := Nat.le_mul_self k
    have hck : 0 ≤ c * D * k := Nat.zero_le _
    linarith
  · refine Nat.lt_of_mul_lt_mul_right (a := D * D) (hlt.trans_le ?_)
    calc (m + 1) * (m + 1) ≤ (c + 1) * D * ((c + 1) * D) := Nat.mul_le_mul hmc hmc
      _ = (c + 1) * (c + 1) * (D * D) := by ring

/-- `ilog2` of a scaled value. -/
theorem ilog2_mul_two_pow {m : Nat} (h0 : m ≠ 0) (e : Nat) : ilog2 (m * 2 ^ e) = ilog2 m + e := by
  refine (Nat.log2_eq_iff (by positivity)).2 ⟨?_, ?_⟩
  · rw [pow_add]
    exact Nat.mul_le_mul_right _ (Nat.log2_self_le h0)
  · rw [Nat.add_right_comm, pow_add]
    exact Nat.mul_lt_mul_of_pos_right Nat.lt_log2_self (by positivity)

/-- `fsqrt` of the integer value N = m * 2^e scales N by a power of 4 to 2d fraction bits, takes the rounded root, and
`ftrunc` drops the d fraction bits of it (R140). -/
theorem trunc_sqrt_eq {m e d : Nat} (h0 : m ≠ 0) (hlog : ilog2 (m * 2 ^ e) < 104)
    (hd : d = 52 - ilog2 (m * 2 ^ e) / 2) :
    (F64.mk m e).sqrt.trunc = nearestSqrt (m * 2 ^ e * (2 ^ d * 2 ^ d)) / 2 ^ d := by
  have hexp : ((ilog2 m : Int) + e) / 2 - 52 = -d := by rw [ilog2_mul_two_pow h0] at hd hlog; omega
  have hx : m * 2 ^ ((e : Int) - 2 * (-d)).toNat = m * 2 ^ e * (2 ^ d * 2 ^ d) := by
    rw [show ((e : Int) - 2 * (-d)).toNat = e + (d + d) by omega, pow_add, pow_add, mul_assoc]
  have hx_lt : m * 2 ^ e * (2 ^ d * 2 ^ d) < 2 ^ 53 * 2 ^ 53 := by
    rw [← pow_add, ← pow_add]
    calc m * 2 ^ e * 2 ^ (d + d) < 2 ^ (ilog2 (m * 2 ^ e) + 1) * 2 ^ (d + d) :=
          Nat.mul_lt_mul_of_pos_right Nat.lt_log2_self (by positivity)
      _ = 2 ^ (ilog2 (m * 2 ^ e) + 1 + (d + d)) := (pow_add _ _ _).symm
      _ ≤ 2 ^ (53 + 53) := Nat.pow_le_pow_right (by decide) (by omega)
  have hroot : floorRoot 53 (m * 2 ^ e * (2 ^ d * 2 ^ d)) 0 = Nat.sqrt (m * 2 ^ e * (2 ^ d * 2 ^ d)) :=
    floorRoot_eq_sqrt 53 (Nat.zero_le _) (by rwa [Nat.zero_add])
  simp only [F64.sqrt, if_neg h0, hexp, hx, hroot, trunc_ofRounded, trunc_of_nonpos, nearestSqrt]

/-- The truncated root c of an integer value N: `c*c ≤ N + c / 2^d`, with d the fraction bits of the root, and
`N < (c+1)*(c+1)` (R146). -/
theorem trunc_sqrt_bounds {m e d c : Nat} (h0 : m ≠ 0) (hlog : ilog2 (m * 2 ^ e) < 104)
    (hd : d = 52 - ilog2 (m * 2 ^ e) / 2) (hc : c = (F64.mk m e).sqrt.trunc) :
    c * c * 2 ^ d ≤ m * 2 ^ e * 2 ^ d + c ∧ m * 2 ^ e < (c + 1) * (c + 1) := by
  obtain ⟨hle, hgt⟩ := nearestSqrt_bounds (m * 2 ^ e * (2 ^ d * 2 ^ d))
  rw [hc, trunc_sqrt_eq h0 hlog hd]
  exact scaled_sqrt_bounds (by positivity) hle hgt

/-! #### The conversion of a natural -/

/-- A natural rounded at bit e is off by at most half a unit of that bit. -/
theorem roundShift_near (n e : Nat) :
    2 * (roundShift n e * 2 ^ e) ≤ 2 * n + 2 ^ e ∧ 2 * n ≤ 2 * (roundShift n e * 2 ^ e) + 2 ^ e := by
  have h := Nat.div_add_mod n (2 ^ e)
  have hlt : n % 2 ^ e < 2 ^ e := Nat.mod_lt _ (by positivity)
  rw [Nat.mul_comm] at h
  simp only [roundShift]
  split
  · rw [Nat.add_mul]; omega
  · omega

/-- A rounded integer value is an integer value, the same one, when it is renormalised. -/
theorem ofRounded_eq (m e : Nat) : ∃ m' e' : Nat, F64.ofRounded m e = ⟨m', e'⟩ ∧ m' * 2 ^ e' = m * 2 ^ e := by
  unfold F64.ofRounded
  split
  · next h => exact ⟨2 ^ 52, e + 1, rfl, by rw [h, pow_succ' 2 e, ← mul_assoc, ← pow_succ]⟩
  · exact ⟨m, e, rfl, rfl⟩

/-- `F64(n)` is an integer value, exact below 2^53 and within 2^10 of n below 2^64 (R140, R146). -/
theorem ofNat_near {n : Nat} (hn : n < 2 ^ 64) :
    ∃ m e : Nat, F64.ofNat n = ⟨m, e⟩ ∧ (n < 2 ^ 53 → m = n ∧ e = 0) ∧
      m * 2 ^ e ≤ n + 2 ^ 10 ∧ n ≤ m * 2 ^ e + 2 ^ 10 := by
  unfold F64.ofNat
  split
  · exact ⟨n, 0, rfl, fun _ => ⟨rfl, rfl⟩, by omega, by omega⟩
  · next hbig =>
    have hlog : ilog2 n < 64 := ilog2_lt_of_lt (by omega) hn
    obtain ⟨hle, hge⟩ := roundShift_near n (ilog2 n - 52)
    have hunit : 2 ^ (ilog2 n - 52) ≤ 2 ^ 11 := Nat.pow_le_pow_right (by decide) (by omega)
    obtain ⟨m, e, hf, hval⟩ := ofRounded_eq (roundShift n (ilog2 n - 52)) (ilog2 n - 52)
    exact ⟨m, e, hf, fun h => absurd h hbig, by omega, by omega⟩

/-! #### The candidate and its correction -/

/-- A c that is nearly the root of N is within one of the root r of any n that is within r of N. -/
theorem within_one_of_near {n N c r δ : Nat} (hr : IsRoot n r) (hN : N ≤ n + δ) (hn : n ≤ N + δ) (hδ : δ ≤ r)
    (hle : c * c ≤ N + c) (hlt : N < (c + 1) * (c + 1)) : r ≤ c + 1 ∧ c ≤ r + 1 := by
  obtain ⟨hrle, hrlt⟩ := hr
  constructor <;> by_contra! h
  · have h1 : (c + 2) * r ≤ r * r := Nat.mul_le_mul_right r h
    have h2 : (c + 1) * (c + 2) ≤ (c + 1) * r := Nat.mul_le_mul_left _ h
    linarith
  · obtain ⟨k, rfl⟩ := Nat.exists_eq_add_of_le' (show 1 ≤ c by omega)
    have h1 : (r + 1) * (r + 2) ≤ k * (k + 1) := Nat.mul_le_mul (by omega) (by omega)
    linarith

/-- `fsqrt` and `ftrunc` of an integer value below 2^104, with the fraction bits dropped from the bounds; 0 included. -/
theorem trunc_sqrt_near {m e c : Nat} (hlt : m * 2 ^ e < 2 ^ 104) (hc : c = (F64.mk m e).sqrt.trunc) :
    c * c ≤ m * 2 ^ e + c ∧ m * 2 ^ e < (c + 1) * (c + 1) := by
  by_cases h0 : m = 0
  · obtain rfl : c = 0 := by rw [hc, h0]; simp [F64.sqrt, F64.trunc]
    simp [h0]
  · obtain ⟨hle, hgt⟩ := trunc_sqrt_bounds h0 (ilog2_lt_of_lt (by positivity) hlt) rfl hc
    refine ⟨?_, hgt⟩
    generalize 52 - ilog2 (m * 2 ^ e) / 2 = d at hle
    refine Nat.le_of_mul_le_mul_right ?_ (Nat.two_pow_pos d)
    have hcd : c ≤ c * 2 ^ d := Nat.le_mul_of_pos_right c (Nat.two_pow_pos d)
    linarith

/-- R146: the candidate is within one of the root. -/
theorem fpCandidate_within_one {n : Nat} (hn : n < 2 ^ 64) :
    Nat.sqrt n ≤ fpCandidate n + 1 ∧ fpCandidate n ≤ Nat.sqrt n + 1 := by
  obtain ⟨m, e, hf, hexact, hle, hge⟩ := ofNat_near hn
  obtain ⟨hc, hc'⟩ := trunc_sqrt_near (show m * 2 ^ e < 2 ^ 104 by omega) rfl
  rw [fpCandidate, hf]
  by_cases hsmall : n < 2 ^ 53
  · have hval : m * 2 ^ e = n := by simp [hexact hsmall]
    exact within_one_of_near (isRoot_sqrt n) (δ := 0) hval.le hval.ge (Nat.zero_le _) hc hc'
  · have hroot : 2 ^ 10 ≤ Nat.sqrt n := Nat.le_sqrt.2 (by omega)
    exact within_one_of_near (isRoot_sqrt n) hle hge hroot hc hc'

/-- The checked square test is the plain comparison: an overflowing square exceeds every w-bit value (R142). -/
theorem squareExceeds_checkedSquare {w n : Nat} (hn : n < 2 ^ w) (x : Nat) :
    squareExceeds (checkedSquare w x) n = decide (n < x * x) := by
  unfold checkedSquare
  split
  · rfl
  · next h => simp [squareExceeds, hn.trans_le (Nat.le_of_not_lt h)]

/-- R143: one correction step maps a candidate within one of the root to the root. -/
theorem fpCorrect_eq_sqrt {w n c : Nat} (hn : n < 2 ^ w) (hlo : Nat.sqrt n ≤ c + 1) (hhi : c ≤ Nat.sqrt n + 1) :
    fpCorrect w n c = Nat.sqrt n := by
  simp only [fpCorrect, squareExceeds_checkedSquare hn, decide_eq_true_eq, Bool.not_eq_true', decide_eq_false_iff_not,
    ← Nat.sqrt_lt]
  split
  · omega
  · split <;> omega

/-- R143: the FP engine computes the root at widths up to 64. -/
theorem fpIsqrtSmall_eq_sqrt {w n : Nat} (hw : w ≤ 64) (hn : n < 2 ^ w) : fpIsqrtSmall w n = Nat.sqrt n := by
  obtain ⟨hlo, hhi⟩ := fpCandidate_within_one (hn.trans_le (Nat.pow_le_pow_right (by decide) hw))
  exact fpCorrect_eq_sqrt hn hlo hhi

/-- R145: the 64-bit pair function meets its contract. -/
theorem pairContract_fpSqrtRem64 : PairContract 64 fpSqrtRem64 :=
  pairContract_iff.2 fun x _ hx => by
    rw [fpSqrtRem64, fpIsqrtSmall_eq_sqrt le_rfl hx]
    rfl

/-- R143, R144, R166: the FP engine computes the root at every width up to 128. -/
theorem fpIsqrt_eq_sqrt {w n : Nat} (hw : w ≤ 64 ∨ w = 128) (hn : n < 2 ^ w) : fpIsqrt w n = Nat.sqrt n := by
  unfold fpIsqrt
  split
  · next h => exact fpIsqrtSmall_eq_sqrt h hn
  · next h =>
    obtain rfl := hw.resolve_left h
    exact karTop_eq_sqrt (by decide) (by decide) (fun x hx => fpIsqrtSmall_eq_sqrt le_rfl hx)
      pairContract_fpSqrtRem64 hn

end Sys2Proof.Machine
end

section
/-! SUPPORT. `Perform` without the engines: every engine returns the library's root, so a command's outcome is a function
of its operation, width and operand (R9, R11, R95, R97). -/

namespace Sys2Proof.Machine

open Sys2Proof.Claims

theorem bits_even (w : Width) : w.bits % 2 = 0 := by cases w <;> rfl

/-- R11: each engine computes the root at each width. -/
theorem engineFn_eq_sqrt (e : Engine) (w : Width) {n : Nat} (hn : n < 2 ^ w.bits) : engineFn e w n = Nat.sqrt n := by
  cases e with
  | bin => exact binEngine_eq_sqrt (bits_even w) hn
  | fp => exact fpIsqrt_eq_sqrt (by cases w <;> decide) hn
  | kar => cases w <;> exact karIsqrt_eq_sqrt _ n hn

theorem width_even_of_mem {w : Nat} (hw : w ∈ widths) : w % 2 = 0 := by
  revert w; decide

theorem isRootRem_remFn (w : Width) {n : Nat} (hn : n < 2 ^ w.bits) : IsRootRem n (remFn w n) := by
  cases w <;> exact isRootRem_karIsqrtRem _ n hn

/-- What `Perform` yields, in terms of the root alone (R95, R97, R200). -/
def rootOutcome (op : Op) {w : Nat} (a : BitVec w) : CmdOutcome :=
  match op with
  | .isqrtU => .root (Nat.sqrt a.toNat)
  | .isqrtremU => .rootRem (Nat.sqrt a.toNat) (a.toNat - Nat.sqrt a.toNat * Nat.sqrt a.toNat)
  | .chksqrtI => if a.msb then .absent else .root (Nat.sqrt a.toNat)
  | .isqrtI => if a.msb then .domainError else .root (Nat.sqrt a.toNat)

/-- The engine plays no part in what `Perform` yields (R11). -/
theorem performShape_eq_rootOutcome (sh : Shape) (a : BitVec sh.width.bits) :
    performShape sh a = rootOutcome sh.op a := by
  obtain ⟨op, w, e⟩ := sh
  have hroot := engineFn_eq_sqrt e w a.isLt
  cases op with
  | isqrtU => exact congrArg CmdOutcome.root hroot
  | isqrtremU => exact congrArg (fun p => CmdOutcome.rootRem p.1 p.2) (isRootRem_remFn w a.isLt)
  | chksqrtI =>
    simp only [performShape, performChecked, signedRoot, isNegative, rootOutcome, hroot]
    cases a.msb <;> rfl
  | isqrtI =>
    simp only [performShape, performFatal, signedRoot, isNegative, rootOutcome, hroot]
    cases a.msb <;> rfl

/-- Every command is the engine step of R95 over the root outcome of its operation. -/
theorem exec_eq_rootOutcome (i : Instr) (s : State) :
    exec i s = runCommand i.shape.width.bits (rootOutcome i.shape.op) s := by
  rw [exec_eq_runCommand, funext (performShape_eq_rootOutcome i.shape)]

/-- A command that answers a next state settled the root outcome of its operation. -/
theorem exec_next_eq_settle {i : Instr} {s t : State} (h : exec i s = .next t) :
    t = settle (rootOutcome i.shape.op (operand i.shape.width.bits s.lopnd)) s := by
  rw [← performShape_eq_rootOutcome]
  exact (exec_next_cases h).2

/-- The operand's value is the low W bits of the latch (R87). -/
theorem toNat_operand (w : Nat) (s : State) : (operand w s.lopnd).toNat = operandOf w s := by
  simp [operand, operandOf, BitVec.extractLsb'_toNat]

theorem operandOf_lt (w : Nat) (s : State) : operandOf w s < 2 ^ w := Nat.mod_lt _ (Nat.two_pow_pos w)

/-- An outcome that completes without ABSENT writes the root (R96). -/
theorem settle_rootOutcome_root {op : Op} {w : Nat} {a : BitVec w} {s : State}
    (hidle : (settle (rootOutcome op a) s).engine = .idle)
    (hpresent : (settle (rootOutcome op a) s).status.absent = false) :
    (settle (rootOutcome op a) s).root = BitVec.ofNat 128 (Nat.sqrt a.toNat) := by
  cases op with
  | isqrtU => rfl
  | isqrtremU => rfl
  | chksqrtI =>
    cases ha : a.msb with
    | true => simp [rootOutcome, ha, settle] at hpresent
    | false => simp [rootOutcome, ha, settle]
  | isqrtI =>
    cases ha : a.msb with
    | true => simp [rootOutcome, ha, settle] at hidle
    | false => simp [rootOutcome, ha, settle]

/-- The root of an operand of a width fits in ROOT (R10, R24). -/
theorem toNat_ofNat_sqrt (w : Width) {n : Nat} (hn : n < 2 ^ w.bits) :
    (BitVec.ofNat 128 (Nat.sqrt n)).toNat = Nat.sqrt n := by
  rw [BitVec.toNat_ofNat]
  refine Nat.mod_eq_of_lt ((Nat.sqrt_le_self n).trans_lt (hn.trans_le ?_))
  exact Nat.pow_le_pow_right (by decide) (by cases w <;> decide)

end Sys2Proof.Machine
end

section
/-! SETTLED. The obligations of 00_scope.md. -/

namespace Sys2Proof.Machine

open Sys2Proof.Claims

/-- A completed command's ROOT is the root of its operand (R9), and within half the width (R10). -/
theorem exec_root_isRoot {i : Instr} {s t : State} (h : exec i s = .next t) (hidle : t.engine = .idle)
    (hpresent : t.status.absent = false) :
    IsRoot (operandOf i.shape.width.bits s) t.root.toNat ∧ t.root.toNat < 2 ^ (i.shape.width.bits / 2) := by
  obtain rfl := exec_next_eq_settle h
  have hlt := operandOf_lt i.shape.width.bits s
  rw [settle_rootOutcome_root hidle hpresent, toNat_operand, toNat_ofNat_sqrt _ hlt]
  exact ⟨isRoot_sqrt _, sqrt_lt_two_pow (bits_even _) hlt⟩

/-- Settles O27: every engine returns the root, and a root has half as many bits as its operand. -/
theorem everyRootIsIsqrt : Obligations.EveryRootIsIsqrt := by
  refine ⟨fun i s t h hidle hpresent => exec_root_isRoot h hidle hpresent, ?_, ?_⟩
  · exact fun w hw n hn r hr => isRoot_lt_two_pow (width_even_of_mem hw) hn hr
  · exact fun n hn r hr => Nat.le_of_lt_succ (isRoot_lt_two_pow (w := 8) rfl hn hr)

/-- Settles O28: a command is determined by its operation and width, since every engine returns the root. -/
theorem engineChoiceInvisible : Obligations.EngineChoiceInvisible := by
  intro i j s hop hwidth
  rw [exec_eq_rootOutcome, exec_eq_rootOutcome, hop, hwidth]

/-- Settling one outcome in two states writes the same results (R12). -/
theorem settle_results_agree (op : Op) {w : Nat} (a : BitVec w) (s s' : State) :
    let t := settle (rootOutcome op a) s
    let t' := settle (rootOutcome op a) s'
    t.engine = t'.engine ∧ t.status.done = t'.status.done ∧ t.status.absent = t'.status.absent ∧
      (t.engine = .halted → t.status = t'.status) ∧
      (t.engine = .idle → t.root = t'.root ∧ (op = .isqrtremU → t.rem = t'.rem)) := by
  cases op with
  | isqrtU => simp [rootOutcome, settle]
  | isqrtremU => simp [rootOutcome, settle]
  | chksqrtI => cases ha : a.msb <;> simp [rootOutcome, ha, settle]
  | isqrtI => cases ha : a.msb <;> simp [rootOutcome, ha, settle, Status.fail]

/-- Settles O29: both states settle the one outcome of the common operand. -/
theorem resultsDependOnOperandAlone : Obligations.ResultsDependOnOperandAlone := by
  intro i s s' t t' hoperand h h'
  have heq : operand i.shape.width.bits s'.lopnd = operand i.shape.width.bits s.lopnd :=
    BitVec.eq_of_toNat_eq (by rw [toNat_operand, toNat_operand, hoperand])
  rw [exec_next_eq_settle h, exec_next_eq_settle h', heq]
  exact settle_results_agree i.shape.op _ s s'

/-- A word access at an address is admitted exactly when it is aligned and lies whole in the window (R7, R54). -/
theorem admitted_windowOffset_iff {addr : Nat} {a : HostAccess} (hsize : a.size = 4)
    (hoff : a.offset = windowOffset addr) :
    a.admitted = true ↔ Config.base ≤ addr ∧ addr + 4 ≤ Config.base + 256 ∧ addr % 4 = 0 := by
  rw [HostAccess.admitted_iff, hsize, hoff]
  unfold windowOffset Config.base
  omega

/-- Settles O47: BASE is 256 times an index, and an offset is the distance from it. -/
theorem windowStandsAtBase : Obligations.WindowStandsAtBase := by
  refine ⟨Nat.mul_mod_right _ _, fun off _ => ?_, fun addr h => ?_, fun addr v => ⟨?_, ?_⟩⟩
  · simp [windowOffset]
  · unfold windowOffset
    omega
  · exact admitted_windowOffset_iff rfl rfl
  · exact admitted_windowOffset_iff rfl rfl

end Sys2Proof.Machine
end

section
/-! SUPPORT. The window map at the offset of a word, what a read and a write do there, and the host's step with an
access (20_memory.md R51, R52, R54-R57, 10_state.md R20). -/

namespace Sys2Proof.Machine

open Sys2Proof.Claims

/-! #### The map -/

theorem windowReg_opnd (k : Fin 4) : windowReg (4 * k.val) = .opnd k := by
  have hword : wordIndex (4 * k.val) = k := Fin.ext (by simp only [wordIndex]; omega)
  rw [windowReg, if_pos (by omega), hword]

theorem windowReg_root (k : Fin 4) : windowReg (0x10 + 4 * k.val) = .root k := by
  have hword : wordIndex (0x10 + 4 * k.val) = k := Fin.ext (by simp only [wordIndex]; omega)
  rw [windowReg, if_neg (by omega), if_pos (by omega), hword]

theorem windowReg_rem (k : Fin 4) : windowReg (0x20 + 4 * k.val) = .rem k := by
  have hword : wordIndex (0x20 + 4 * k.val) = k := Fin.ext (by simp only [wordIndex]; omega)
  rw [windowReg, if_neg (by omega), if_neg (by omega), if_pos (by omega), hword]

theorem windowReg_reserved {off : Nat} (h : 0x3C ≤ off) : windowReg off = .reserved := by
  simp (disch := omega) only [windowReg, if_neg]

/-- Only the offsets below 0x10 name a word of OPND (R51). -/
theorem lt_of_windowReg_eq_opnd {off : Nat} {k : Fin 4} (h : windowReg off = .opnd k) : off < 0x10 := by
  by_contra hoff
  rw [windowReg, if_neg hoff] at h
  repeat' split at h
  all_goals cases h

/-! #### Reads -/

theorem memRead_opnd (k : Fin 4) (s : State) :
    memRead (4 * k.val) s = readFlagged s.opnd s.opndWritten k := by
  rw [memRead, windowReg_opnd]

theorem memRead_root (k : Fin 4) (s : State) :
    memRead (0x10 + 4 * k.val) s = readFlagged s.root s.rootWritten k := by
  rw [memRead, windowReg_root]

theorem memRead_rem (k : Fin 4) (s : State) :
    memRead (0x20 + 4 * k.val) s = readFlagged s.rem s.remWritten k := by
  rw [memRead, windowReg_rem]

theorem memRead_reserved {off : Nat} (h : 0x3C ≤ off) (s : State) : memRead off s = some 0#32 := by
  rw [memRead, windowReg_reserved h]

/-- What the unit answers does not depend on the answers the host has had. -/
theorem memRead_hostReads (off : Nat) (answers : List Word32) (s : State) :
    memRead off { s with hostReads := answers } = memRead off s := rfl

theorem readFlagged_of_written {written : WordFlags} {k : Fin 4} (r : Reg128) (h : written.get k = true) :
    readFlagged r written k = some (getWord r k) := if_pos h

theorem readFlagged_of_unwritten {written : WordFlags} {k : Fin 4} (r : Reg128) (h : written.get k = false) :
    readFlagged r written k = none := if_neg (by simp [h])

/-- The bytes of an aligned word are the bytes of what a read of it returns (R52). -/
theorem windowByte_of_memRead {base : Nat} {s : State} {r : Reg128} {k j : Fin 4} (halign : base % 4 = 0)
    (h : memRead base s = some (getWord r k)) :
    windowByte (base + j.val) s = some (r.extractLsb' (32 * k.val + 8 * j.val) 8) := by
  have hword : 4 * ((base + j.val) / 4) = base := by omega
  have hbyte : byteOf (getWord r k) (base + j.val) = byteOf (getWord r k) j.val := by
    simp only [byteOf, show (base + j.val) % 4 = j.val % 4 by omega]
  rw [windowByte, hword, h, Option.map_some, hbyte, byteOf_getWord]

/-! #### Writes -/

theorem memWrite_of_halted {s : State} (off : Nat) (v : Word32) (h : s.status.halted = true) :
    memWrite off v s = s := if_pos h

theorem memWrite_opnd {s : State} (k : Fin 4) (v : Word32) (h : s.status.halted = false) :
    memWrite (4 * k.val) v s = writeOpnd k v s := by
  simp [memWrite, h, windowReg_opnd]

theorem memWrite_cmd {s : State} (v : Word32) (h : s.status.halted = false) :
    memWrite 0x30 v s = commandWrite v s := by
  simp [memWrite, h, windowReg]

/-- From 0x10 on, every offset but CMD's is read-only or reserved (R51, R56). -/
theorem memWrite_readOnly {off : Nat} (v : Word32) (s : State) (hopnd : 0x10 ≤ off) (hcmd : off ≠ 0x30) :
    memWrite off v s = s := by
  rcases memWrite_cases off v s with h | ⟨-, ⟨k, hk, -⟩ | ⟨hk, -⟩⟩
  · exact h
  · exact absurd (lt_of_windowReg_eq_opnd hk) (by omega)
  · exact absurd (windowReg_eq_cmd hk) hcmd

/-- Writing a word of a register twice is writing it once. -/
theorem setWord_setWord_same (r : Reg128) (k : Fin 4) (v : Word32) :
    setWord (setWord r k v) k v = setWord r k v := by
  apply BitVec.eq_of_getLsbD_eq
  intro i hi
  rw [getLsbD_setWord _ _ _ _ hi, getLsbD_setWord _ _ _ _ hi]
  split <;> rfl

/-- An OPND write is idempotent (R56). -/
theorem writeOpnd_writeOpnd_same (k : Fin 4) (v : Word32) (s : State) :
    writeOpnd k v (writeOpnd k v s) = writeOpnd k v s := by
  simp only [writeOpnd, setWord_setWord_same, Vector.set_set]

theorem commandWrite_of_busy {s : State} (v : Word32) (h : s.engine = .busy) :
    commandWrite v s = raiseFault .protocol v s := if_pos h

theorem commandWrite_of_not_busy {s : State} (v : Word32) (h : s.engine ≠ .busy) :
    commandWrite v s = latchCommand v s := if_neg h

/-! #### The host's step -/

/-- Where the host may move and its next operation is admitted, the step is the host's (R20). -/
theorem step_of_hostMoves {s : State} (hmoves : HostMoves s) (hready : hostReady s = true) :
    step s = hostStep (popTurn s) := by
  have hagent : nextAgent s = some .host := by
    rw [nextAgent, if_pos hready, if_pos hready]
    split
    · next hbusy =>
      obtain hidle | ⟨rest, hturns⟩ := hmoves
      · exact absurd ((engineReady_iff s).1 hbusy) hidle
      · simp [scheduled, hturns]
    · rfl
  rw [step, hagent]

/-- Where the host may move, its next admitted access is the whole step (R20, R59). -/
theorem step_access {s : State} {a : HostAccess} {rest : List HostOp} (hmoves : HostMoves s)
    (hops : s.hostOps = .access a :: rest) (hadm : a.admitted = true) :
    step s = performAccess a { popTurn s with hostOps := rest } := by
  have hready : hostReady s = true := by rw [hostReady, hops]; exact hadm
  rw [step_of_hostMoves hmoves hready, hostStep, popTurn_hostOps, hops]
  exact if_pos hadm

/-- A host read of a word without a defined value ends the run (R57). -/
theorem step_read_undefined {s : State} {off : Int} {rest : List HostOp} (hmoves : HostMoves s)
    (hops : s.hostOps = .access (.read off 4) :: rest) (hoff : off % 4 = 0 ∧ 0 ≤ off ∧ off + 4 ≤ 256)
    (hnone : memRead off.toNat s = none) : step s = .fault .unwrittenRead := by
  rw [step_access hmoves hops ((HostAccess.admitted_iff _).2 ⟨rfl, hoff⟩)]
  show deliver (memRead off.toNat s) _ = _
  rw [hnone, deliver]

end Sys2Proof.Machine
end

section
/-! SETTLED. The obligations of 20_memory.md. -/

namespace Sys2Proof.Machine

open Sys2Proof.Claims

/-- A read that answers changes the list of answers and nothing a later read sees (R55). -/
theorem performAccess_read_next {off : Nat} {s t : State} (h : performAccess (.read off 4) s = .next t) :
    ∃ v, memRead off s = some v ∧ t = { s with hostReads := s.hostReads ++ [v] } ∧
      ∀ off', memRead off' t = memRead off' s := by
  obtain ⟨v, hv, rfl⟩ := deliver_next h
  exact ⟨v, hv, rfl, fun off' => memRead_hostReads off' _ s⟩

/-- Settles O38: the read of each offset by the map, and a read only adds its answer to the host's list. -/
theorem windowReadMap : Obligations.WindowReadMap := by
  intro s
  refine ⟨fun k => ⟨memRead_opnd k s, memRead_root k s, memRead_rem k s⟩, rfl, rfl, rfl, ?_, ?_⟩
  · exact fun off hoff _ => memRead_reserved hoff s
  · exact fun off t h => performAccess_read_next h

/-- Settles O40: a window byte is a byte of the aligned word it lies in. -/
theorem littleEndianWindow : Obligations.LittleEndianWindow := by
  intro s k j
  refine ⟨fun h => ?_, fun h => ?_, fun h => ?_⟩
  · exact windowByte_of_memRead (by omega) (by rw [memRead_opnd, readFlagged_of_written _ h])
  · exact windowByte_of_memRead (by omega) (by rw [memRead_root, readFlagged_of_written _ h])
  · exact windowByte_of_memRead (by omega) (by rw [memRead_rem, readFlagged_of_written _ h])

/-- A second CMD write of the same word to an idle unit raises PROTOCOL where the first was accepted (R56, R93). -/
theorem memWrite_cmd_not_idempotent {s : State} (v : Word32) (hrun : s.status.halted = false)
    (hidle : s.engine = .idle) : memWrite 0x30 v (memWrite 0x30 v s) ≠ memWrite 0x30 v s := by
  have hfirst : memWrite 0x30 v s = latchCommand v s := by
    rw [memWrite_cmd v hrun, commandWrite_of_not_busy v (by simp [hidle])]
  have hsecond : memWrite 0x30 v (latchCommand v s) = raiseFault .protocol v (latchCommand v s) := by
    rw [memWrite_cmd v (by simpa using hrun), commandWrite_of_busy v (latchCommand_engine v s)]
  rw [hfirst, hsecond]
  intro heq
  simpa using congrArg State.engine heq

/-- Settles O41: the cases of a write by the map, with the OPND write's frame and idempotence. -/
theorem windowWriteMap : Obligations.WindowWriteMap := by
  refine ⟨fun s off v => memWrite_of_halted off v, fun s v hrun => ⟨memWrite_cmd v hrun, fun k => ?_, ?_, ?_⟩⟩
  · have hrun' : (writeOpnd k v s).status.halted = false := hrun
    rw [memWrite_opnd k v hrun, memWrite_opnd k v hrun', writeOpnd_opnd, writeOpnd_opndWritten]
    refine ⟨getWord_setWord_same _ k v, get_set_same _ k, fun j hj => ⟨?_, ?_⟩, rfl,
      writeOpnd_writeOpnd_same k v s⟩
    · exact getWord_setWord_ne _ v hj
    · exact get_set_ne _ hj
  · exact fun off hopnd hcmd => memWrite_readOnly v s hopnd hcmd
  · exact memWrite_cmd_not_idempotent v hrun

/-- Settles O45: each of the three words has no defined value, so the host's read of it is the fault. -/
theorem unwrittenReadStops : Obligations.UnwrittenReadStops := by
  intro s k rest hmoves
  refine ⟨fun hflag hops => ?_, fun hflag hops => ?_, fun hflag hops => ?_⟩
  · exact step_read_undefined hmoves hops (by omega) ((memRead_opnd k s).trans (readFlagged_of_unwritten _ hflag))
  · exact step_read_undefined hmoves hops (by omega) ((memRead_root k s).trans (readFlagged_of_unwritten _ hflag))
  · exact step_read_undefined hmoves hops (by omega) ((memRead_rem k s).trans (readFlagged_of_unwritten _ hflag))

end Sys2Proof.Machine
end

section
/-! SUPPORT. Decoding by fields: the code of each width, engine and operation is the one its field decodes from (R81-R83),
so a word decodes to a command exactly when its fields are the command's (R84, R89, R94). -/

namespace Sys2Proof

/-- The WID code of a width (R81). -/
def Width.code : Width → BitVec 4
  | .w8 => 0
  | .w16 => 1
  | .w32 => 2
  | .w64 => 3
  | .w128 => 4

/-- The ENG code of an engine (R82). -/
def Engine.code : Engine → BitVec 4
  | .bin => 0
  | .fp => 1
  | .kar => 2

/-- The OP code of an operation (R83). -/
def Op.code : Op → BitVec 4
  | .isqrtU => 0
  | .isqrtremU => 1
  | .chksqrtI => 2
  | .isqrtI => 3

/-- The fields of the command word of a shape (R80, R89). -/
def Shape.fields (sh : Shape) : CmdFields := ⟨sh.width.code, sh.engine.code, sh.op.code, 0#20⟩

/-! #### Each field -/

theorem widthOf_eq_some_iff {wid : BitVec 4} {w : Width} : widthOf wid = some w ↔ wid = w.code := by
  cases w <;> revert wid <;> decide

theorem engineOf_eq_some_iff {eng : BitVec 4} {e : Engine} : engineOf eng = some e ↔ eng = e.code := by
  cases e <;> revert eng <;> decide

theorem opOf_eq_some_iff {op : BitVec 4} {o : Op} : opOf op = some o ↔ op = o.code := by
  cases o <;> revert op <;> decide

theorem widthOf_isSome : ∀ {wid : BitVec 4}, wid.toNat ≤ 4 → (widthOf wid).isSome := by decide

theorem engineOf_isSome : ∀ {eng : BitVec 4}, eng.toNat ≤ 2 → (engineOf eng).isSome := by decide

theorem opOf_isSome : ∀ {op : BitVec 4}, op.toNat ≤ 3 → (opOf op).isSome := by decide

/-- Only ISQRTREM without KAR names no command, on codes as R84 words it. -/
theorem instrOf_isSome {o : Op} {e : Engine} (w : Width) (h : ¬(o.code.toNat = 1 ∧ e.code.toNat ≠ 2)) :
    (instrOf o e w).isSome := by
  cases o with
  | isqrtremU =>
    cases e with
    | kar => cases w <;> rfl
    | bin | fp => exact absurd (by decide) h
  | isqrtU | chksqrtI | isqrtI => cases e <;> cases w <;> rfl

theorem instrOf_shape (i : Instr) : instrOf i.shape.op i.shape.engine i.shape.width = some i := by
  cases i <;> rfl

/-- The command of an operation, engine and width is the one of that shape. -/
theorem instrOf_eq_some_iff {o : Op} {e : Engine} {w : Width} {i : Instr} :
    instrOf o e w = some i ↔ i.shape = ⟨o, w, e⟩ := by
  constructor
  · intro h
    unfold instrOf at h
    split at h <;> cases h <;> rfl
  · intro h
    simpa only [h] using instrOf_shape i

/-! #### The whole word -/

/-- The four fields cover the word (R80). -/
theorem fieldsOf_injective : Function.Injective fieldsOf := by
  intro c d h
  obtain ⟨hwid, heng, hop, hrsv⟩ := CmdFields.mk.inj h
  replace hwid := congrArg BitVec.toNat hwid
  replace heng := congrArg BitVec.toNat heng
  replace hop := congrArg BitVec.toNat hop
  replace hrsv := congrArg BitVec.toNat hrsv
  simp only [BitVec.extractLsb'_toNat, Nat.shiftRight_eq_div_pow] at hwid heng hop hrsv
  apply BitVec.eq_of_toNat_eq
  omega

/-- What the decoder asks of a word, field by field (R94). -/
theorem decode_eq_ok_iff_fields {c : Word32} {i : Instr} :
    decode c = .ok i ↔ (fieldsOf c).rsv = 0#20 ∧ ∃ w e o, widthOf (fieldsOf c).wid = some w ∧
      engineOf (fieldsOf c).eng = some e ∧ opOf (fieldsOf c).op = some o ∧ instrOf o e w = some i := by
  constructor
  · intro h
    simp only [decode] at h
    repeat' split at h
    all_goals cases h
    rename_i hrsv _ w hw _ e he _ o ho _ hi
    exact ⟨not_not.1 hrsv, w, e, o, hw, he, ho, hi⟩
  · rintro ⟨hrsv, w, e, o, hw, he, ho, hi⟩
    simp [decode, hrsv, hw, he, ho, hi]

/-- A word decodes to a command exactly when its fields are those of the command's shape. -/
theorem decode_eq_ok_iff_shape {c : Word32} {i : Instr} : decode c = .ok i ↔ fieldsOf c = i.shape.fields := by
  simp only [decode_eq_ok_iff_fields, widthOf_eq_some_iff, engineOf_eq_some_iff, opOf_eq_some_iff,
    instrOf_eq_some_iff]
  constructor
  · rintro ⟨hrsv, w, e, o, hw, he, ho, hi⟩
    rw [hi, Shape.fields, ← hw, ← he, ← ho, ← hrsv]
  · intro h
    rw [h]
    exact ⟨rfl, _, _, _, rfl, rfl, rfl, rfl⟩

theorem fieldsOf_encode (i : Instr) : fieldsOf (encode i) = i.shape.fields := by
  cases i <;> rfl

/-- The one word of a command is its word in the opcode map (R89). -/
theorem decode_eq_ok_iff {c : Word32} {i : Instr} : decode c = .ok i ↔ encode i = c := by
  rw [decode_eq_ok_iff_shape, ← fieldsOf_encode, fieldsOf_injective.eq_iff, eq_comm]

theorem encode_injective : Function.Injective encode := by
  intro i j h
  have hi : decode (encode j) = .ok i := decode_eq_ok_iff.2 h
  have hj : decode (encode j) = .ok j := decode_eq_ok_iff.2 rfl
  exact DecodeResult.ok.inj (hi.symm.trans hj)

theorem mem_allInstrs (i : Instr) : i ∈ allInstrs := by
  cases i <;> decide

/-! #### Legal words -/

theorem CmdFields.legal_iff (f : CmdFields) :
    f.legal = true ↔ f.rsv = 0#20 ∧ f.wid.toNat ≤ 4 ∧ f.eng.toNat ≤ 2 ∧ f.op.toNat ≤ 3 ∧
      ¬(f.op.toNat = 1 ∧ f.eng.toNat ≠ 2) := by
  simp only [CmdFields.legal, Bool.and_eq_true, Bool.not_eq_true', Bool.and_eq_false_iff, beq_iff_eq,
    decide_eq_true_eq, bne_eq_false_iff_eq, beq_eq_false_iff_ne]
  tauto

theorem legal_encode (i : Instr) : (fieldsOf (encode i)).legal = true := by
  cases i <;> rfl

/-- `Legal` is what the decoder accepts (R84, R94). -/
theorem legal_iff_decodes (c : Word32) : (fieldsOf c).legal = true ↔ ∃ i, decode c = .ok i := by
  constructor
  · intro h
    obtain ⟨hrsv, hwid, heng, hop, hrem⟩ := (CmdFields.legal_iff _).1 h
    obtain ⟨w, hw⟩ := Option.isSome_iff_exists.1 (widthOf_isSome hwid)
    obtain ⟨e, he⟩ := Option.isSome_iff_exists.1 (engineOf_isSome heng)
    obtain ⟨o, ho⟩ := Option.isSome_iff_exists.1 (opOf_isSome hop)
    rw [opOf_eq_some_iff.1 ho, engineOf_eq_some_iff.1 he] at hrem
    obtain ⟨i, hi⟩ := Option.isSome_iff_exists.1 (instrOf_isSome w hrem)
    exact ⟨i, decode_eq_ok_iff_fields.2 ⟨hrsv, w, e, o, hw, he, ho, hi⟩⟩
  · rintro ⟨i, hi⟩
    rw [← decode_eq_ok_iff.1 hi]
    exact legal_encode i

end Sys2Proof
end

section
/-! SETTLED. The obligations of 30_encoding.md. -/

namespace Sys2Proof.Machine

open Sys2Proof.Claims

/-- Settles O4: the five conditions are what the decoder accepts, and it accepts a word exactly when the opcode map lists
it. -/
theorem legalWordsAreTheFifty : Obligations.LegalWordsAreTheFifty := by
  refine ⟨fun c => ?_, fun c => ?_, ?_, rfl⟩
  · exact (CmdFields.legal_iff (fieldsOf c)).symm.trans (legal_iff_decodes c)
  · simp only [decode_eq_ok_iff, List.mem_map, mem_allInstrs, true_and]
  · have hdistinct : allInstrs.Nodup := by decide
    exact hdistinct.map encode_injective

/-- Settles O35: an illegal word does not decode, and the engine step then is the fault, which reads no operand. -/
theorem illegalWordFaults : Obligations.IllegalWordFaults := by
  intro s hillegal
  rcases engineStep_cases s with ⟨-, hfault⟩ | ⟨i, hi, -⟩
  · exact hfault
  · have hlegal : (fieldsOf s.lcmd).legal = true := (legal_iff_decodes s.lcmd).2 ⟨i, hi⟩
    exact absurd ((CmdFields.legal_iff _).1 hlegal) hillegal

/-- Settles O42: the two cases of a CMD write. -/
theorem commandWriteEffect : Obligations.CommandWriteEffect := by
  intro s v hrun
  rw [memWrite_cmd v hrun]
  exact ⟨commandWrite_of_busy v, commandWrite_of_not_busy v⟩

end Sys2Proof.Machine
end

section
/-! SUPPORT. The pair of a root and its remainder as the one solution of R110, and the base table read through it. -/

namespace Sys2Proof.Machine

open Sys2Proof.Claims

/-- The equation and the bound of R110 have exactly one solution, the root and its remainder. -/
theorem isRootRem_iff {n s r : Nat} : IsRootRem n (s, r) ↔ s * s + r = n ∧ r ≤ 2 * s := by
  constructor
  · intro h
    obtain ⟨rfl, rfl⟩ := Prod.mk.inj h
    have := Nat.sqrt_le n
    have := Nat.sqrt_le_add n
    omega
  · rintro ⟨rfl, hr⟩
    have hroot : IsRoot (s * s + r) s := ⟨Nat.le_add_right _ _, by linarith⟩
    simpa using isRootRem_of_isRoot hroot

/-- R112: a read of entry i returns the root and remainder of i. -/
theorem isRootRem_tableRead (i : Byte) : IsRootRem i.toNat ((tableRead i).1.toNat, (tableRead i).2.toNat) := by
  simpa [tablePair] using isRootRem_tablePair i.isLt

/-- A root is at least every number whose square the operand reaches (R113). -/
theorem le_of_isRoot {n r k : Nat} (hr : IsRoot n r) (hk : k * k ≤ n) : k ≤ r :=
  isRoot_iff_eq_sqrt.1 hr ▸ Nat.le_sqrt.2 hk

end Sys2Proof.Machine
end

section
/-! SETTLED. The obligation of 40_base_table.md. -/

namespace Sys2Proof.Machine

open Sys2Proof.Claims

/-- Settles O6: entry i is the root and remainder of i, so R110's equation and bound single it out, and the bounds of R113
are those of the root of an 8-bit number. -/
theorem baseTableEntries : Obligations.BaseTableEntries := by
  refine ⟨baseTable_length, fun i => ?_⟩
  have hentry := isRootRem_tableRead i
  obtain ⟨hsum, hrem⟩ := isRootRem_iff.1 hentry
  have hroot : IsRoot i.toNat (tableRead i).1.toNat := isRoot_iff_eq_sqrt.2 hentry.fst
  have hlt : (tableRead i).1.toNat < 2 ^ (8 / 2) := isRoot_lt_two_pow (by decide) i.isLt hroot
  have hunique : ∀ s r : Nat, s * s + r = i.toNat → r ≤ 2 * s →
      s = (tableRead i).1.toNat ∧ r = (tableRead i).2.toNat := fun s r hs hr =>
    Prod.mk.inj ((isRootRem_iff.2 ⟨hs, hr⟩).trans hentry.symm)
  exact ⟨hsum, hrem, hunique, hroot, by omega, by omega, le_of_isRoot (k := 1) hroot, le_of_isRoot (k := 8) hroot⟩

end Sys2Proof.Machine
end

section
/-! SUPPORT. The binary loop from its start: the digits left after k passes, so the weight and the end of the loop (R121,
R129), and the pass count against the width. -/

namespace Sys2Proof.Machine

/-- k passes from the start leave `even(ilog2 n)/2 + 1 - k` digits to be found (R121). -/
theorem binAt_binLoop_binStart {w : Nat} {n : BitVec w} (h0 : n.toNat ≠ 0) (k : Nat) :
    BinAt n.toNat (evenDown (ilog2 n.toNat) / 2 + 1 - k) (binLoop k (binStart n)) :=
  binAt_binLoop n.isLt k (binAt_binStart h0)

/-- The weight is 0 exactly when no digit is left to be found. -/
theorem BinAt.one_eq_zero_iff {w n j : Nat} {v : BinRegs w} (h : BinAt n j v) : v.one = 0#w ↔ j = 0 := by
  rw [← BitVec.toNat_inj, BitVec.toNat_zero]
  cases j with
  | zero => simp [h.one]
  | succ j => simp [h.one_eq]

/-- The root is in `res` when no digit is left to be found. -/
theorem BinAt.res_eq_sqrt {w n : Nat} {v : BinRegs w} (h : BinAt n 0 v) : v.res.toNat = Nat.sqrt n := by
  simpa using h.res

/-- R129: at an even width the pass count is at most half the width. -/
theorem binPassCount_le_half {w n : Nat} (hw : w % 2 = 0) (h0 : n ≠ 0) (hn : n < 2 ^ w) :
    evenDown (ilog2 n) / 2 + 1 ≤ w / 2 := by
  have hlog := ilog2_lt_of_lt h0 hn
  have hle := evenDown_le (ilog2 n)
  have heven := evenDown_mod_two (ilog2 n)
  omega

/-- R129: an operand in the top three quarters of its range takes half the width in passes. -/
theorem half_le_binPassCount {w n : Nat} (h0 : n ≠ 0) (hn : 2 ^ (w - 2) ≤ n) :
    w / 2 ≤ evenDown (ilog2 n) / 2 + 1 := by
  have hlog : w - 2 ≤ ilog2 n := (Nat.le_log2 h0).2 hn
  have hlt := lt_evenDown_add_two (ilog2 n)
  have heven := evenDown_mod_two (ilog2 n)
  omega

end Sys2Proof.Machine
end

section
/-! SETTLED. The obligations of 41_binary.md. -/

namespace Sys2Proof.Machine

open Sys2Proof.Claims

/-- Settles O7: with j + 1 digits to be found the weight is `4^j`, and with j to be found `res` and `op` are those of the
root of `n / 4^j`. -/
theorem binLoopInvariant : Obligations.BinLoopInvariant := by
  intro w _ n hbig j hj
  have h0 : n.toNat ≠ 0 := by omega
  have hbefore := binAt_binLoop_binStart h0 (evenDown (ilog2 n.toNat) / 2 - j)
  have hafter := binAt_binLoop_binStart h0 (evenDown (ilog2 n.toNat) / 2 + 1 - j)
  rw [show evenDown (ilog2 n.toNat) / 2 + 1 - (evenDown (ilog2 n.toNat) / 2 - j) = j + 1 by omega] at hbefore
  rw [Nat.sub_sub_self (by omega)] at hafter
  have hsq : (Nat.sqrt (n.toNat / 4 ^ j) * 2 ^ j) ^ 2 = Nat.sqrt (n.toNat / 4 ^ j) ^ 2 * 4 ^ j := by
    rw [mul_pow, ← Nat.pow_mul, Nat.mul_comm j, Nat.pow_mul]
  refine ⟨hbefore.one_eq, Nat.sqrt (n.toNat / 4 ^ j), isRoot_sqrt _, ?_, hafter.res, hsq ▸ hafter.op⟩
  rw [hsq]
  exact (Nat.le_div_iff_mul_le (by positivity)).1 (Nat.sqrt_le' _)

/-- Settles O9: each pass finds one of the `even(ilog2 n)/2 + 1` digits, and the loop stops when none is left. -/
theorem binPassCount : Obligations.BinPassCount := by
  intro w hw n
  have heven := width_even_of_mem hw
  refine ⟨fun hsmall => if_pos hsmall, fun hbig => ?_⟩
  have h0 : n.toNat ≠ 0 := by omega
  have hle := binPassCount_le_half heven h0 n.isLt
  refine ⟨fun k => ?_, BitVec.eq_of_toNat_eq ?_, hle, fun htop => hle.antisymm (half_le_binPassCount h0 htop)⟩
  · rw [(binAt_binLoop_binStart h0 k).one_eq_zero_iff, Nat.sub_eq_zero_iff_le]
  · have hend := binAt_binLoop_binStart h0 (evenDown (ilog2 n.toNat) / 2 + 1)
    rw [Nat.sub_self] at hend
    rw [toNat_binIsqrt heven, hend.res_eq_sqrt]

/-- Settles O10: the engine returns the library's root, and a root has half as many bits as its operand. -/
theorem binEngineComputesIsqrt : Obligations.BinEngineComputesIsqrt := by
  intro w hw n
  have heven := width_even_of_mem hw
  have hroot : IsRoot n.toNat (binIsqrt n).toNat := isRoot_iff_eq_sqrt.2 (toNat_binIsqrt heven n)
  exact ⟨hroot, isRoot_lt_two_pow heven n.isLt hroot⟩

end Sys2Proof.Machine
end

section
/-! SUPPORT. The ranges of a Karatsuba step's intermediate values (R162): what a right half-width pair bounds, what
soundness then bounds, and the borrow branch in arithmetic modulo the datapath's range. -/

namespace Sys2Proof.Machine

open Sys2Proof.Claims

/-- The widths of a Karatsuba step are positive multiples of 4 (R161). -/
theorem step_width_of_mem {w : Nat} (hw : w ∈ [16, 32, 64, 128]) : w % 4 = 0 ∧ 0 < w := by
  revert w; decide

theorem levelBits_mod_two (l : Nat) : levelBits l % 2 = 0 := by unfold levelBits; omega

/-- Shifting an operand left by an even count shifts its root left by half of it, up to lower bits (R167). -/
theorem sqrt_mul_two_pow_div (n : Nat) {k : Nat} (hk : 2 * (k / 2) = k) :
    Nat.sqrt (n * 2 ^ k) / 2 ^ (k / 2) = Nat.sqrt n := by
  have hpow : 2 ^ k = 2 ^ (k / 2) * 2 ^ (k / 2) := by rw [← pow_add, ← two_mul, hk]
  rw [hpow]
  exact sqrt_mul_mul_self_div n (Nat.two_pow_pos _)

theorem two_pow_half_eq_quarter_sq {w : Nat} (hw : w % 4 = 0) : 2 ^ (w / 2) = 2 ^ (w / 4) * 2 ^ (w / 4) := by
  rw [← pow_add]
  congr 1
  omega

/-- The half-width pair of a normalised operand: a normalised root and a remainder of at most twice it (R162). -/
theorem karVars_half_bounds {w m : Nat} (hw : w % 4 = 0) (hpos : 0 < w) {halfRem : Nat → Nat × Nat}
    (hc : PairContract (w / 2) halfRem) (hlo : 2 ^ (w - 2) ≤ m) (hhi : m < 2 ^ w) :
    2 ^ (w / 4 - 1) ≤ (karVars w m halfRem).s1 ∧ (karVars w m halfRem).s1 < 2 ^ (w / 4) ∧
      (karVars w m halfRem).r1 ≤ 2 * (karVars w m halfRem).s1 := by
  obtain ⟨hge, hlt⟩ := high_half_normalised hw hpos hlo hhi
  have hroot := (hc _ hge hlt).1
  have hquarter : w / 2 / 2 = w / 4 := by omega
  exact ⟨hquarter ▸ two_pow_le_root (by omega) (by omega) hge hroot,
    hquarter ▸ isRoot_lt_two_pow (by omega) hlt hroot,
    (isRootRem_iff.1 (pairContract_iff.1 hc _ hge hlt)).2⟩

/-- The numerator, at most the divisor times `2^(W/4)` and one more quarter of the operand, takes W/2 + 1 bits (R162). -/
theorem karVars_num_lt {w m : Nat} (hw : w % 4 = 0) {halfRem : Nat → Nat × Nat}
    (hs1 : (karVars w m halfRem).s1 < 2 ^ (w / 4)) (hr1 : (karVars w m halfRem).r1 ≤ 2 * (karVars w m halfRem).s1) :
    (karVars w m halfRem).num < 2 * 2 ^ (w / 2) := by
  have hl1 : m % 2 ^ (w / 2) / 2 ^ (w / 4) < 2 ^ (w / 4) := by
    rw [Nat.div_lt_iff_lt_mul (by positivity), ← two_pow_half_eq_quarter_sq hw]
    exact Nat.mod_lt _ (by positivity)
  calc (karVars w m halfRem).num < (karVars w m halfRem).r1 * 2 ^ (w / 4) + 2 ^ (w / 4) := Nat.add_lt_add_left hl1 _
    _ = ((karVars w m halfRem).r1 + 1) * 2 ^ (w / 4) := (Nat.succ_mul _ _).symm
    _ ≤ 2 * 2 ^ (w / 4) * 2 ^ (w / 4) := Nat.mul_le_mul_right _ (by omega)
    _ = 2 * 2 ^ (w / 2) := by rw [two_pow_half_eq_quarter_sq hw, Nat.mul_assoc]

section Sound
variable {B m : Nat} {v : KarVars} (hv : v.Sound B m)
include hv

theorem KarVars.Sound.root_le (hs : v.s1 < B) : v.s ≤ B * B := by
  calc v.s = v.s1 * B + v.q := hv.root
    _ ≤ v.s1 * B + B := Nat.add_le_add_left hv.quot _
    _ = (v.s1 + 1) * B := (Nat.succ_mul _ _).symm
    _ ≤ B * B := Nat.mul_le_mul_right _ hs

theorem KarVars.Sound.rest_lt (hs : v.s1 < B) : v.t < 2 * (B * B) := by
  calc v.t < 2 * v.s1 * B := hv.rest
    _ = 2 * (v.s1 * B) := Nat.mul_assoc _ _ _
    _ ≤ 2 * (B * B) := Nat.mul_le_mul_left _ (Nat.mul_le_mul_right _ hs.le)

/-- In the borrow branch the root before the correction is one too large, and adding `2*s - 1` makes up for the borrow
(R164). -/
theorem KarVars.Sound.quot_sq_lt_of_borrow (hlt : v.t < v.q * v.q) : v.q * v.q < v.t + 2 * v.s := by
  have hsquare := hv.square
  have hroot : Nat.sqrt m < v.s := Nat.sqrt_lt.2 (by omega)
  have hpred : v.s ≤ Nat.sqrt m + 1 := by
    rw [← (isRootRem_karCombine hv).fst, karCombine, if_neg (Nat.not_le.2 hlt)]
    omega
  have hle := Nat.sqrt_le m
  obtain hs : v.s = Nat.sqrt m + 1 := by omega
  have hexp : v.s * v.s = Nat.sqrt m * Nat.sqrt m + 2 * Nat.sqrt m + 1 := by rw [hs]; ring
  omega

/-- R162: subtracting and then adding modulo N gives the remainder of the borrow branch exactly. -/
theorem KarVars.Sound.borrow_mod {N : Nat} (hN : B * B ≤ N) (hr : (karCombine v).2 < N) (hlt : v.t < v.q * v.q) :
    ((v.t + N - v.q * v.q) % N + (2 * v.s - 1)) % N = (karCombine v).2 := by
  have hborrow := hv.quot_sq_lt_of_borrow hlt
  have hqq : v.q * v.q ≤ N := (Nat.mul_le_mul hv.quot hv.quot).trans hN
  rw [karCombine, if_neg (Nat.not_le.2 hlt)] at hr ⊢
  dsimp only at hr ⊢
  rw [Nat.mod_eq_of_lt (a := v.t + N - v.q * v.q) (by omega),
    show v.t + N - v.q * v.q + (2 * v.s - 1) = N + (v.t + 2 * v.s - 1 - v.q * v.q) by omega,
    Nat.add_mod_left, Nat.mod_eq_of_lt hr]

end Sound

end Sys2Proof.Machine
end

section
/-! SETTLED. The obligations of 43_karatsuba.md. -/

namespace Sys2Proof.Machine

open Sys2Proof.Claims

/-- Settles O15: the half-width pair bounds the numerator and the divisor, soundness bounds what follows the division, and
the step's result is the root and remainder of an operand below `2^W`. -/
theorem karIntermediatesFit : Obligations.KarIntermediatesFit := by
  refine ⟨fun w hmem halfRem hc m hlo hhi => ?_, by decide +kernel⟩
  obtain ⟨hw, hpos⟩ := step_width_of_mem hmem
  obtain ⟨hs1_ge, hs1_lt, hr1⟩ := karVars_half_bounds hw hpos hc hlo hhi
  have hsound := karVars_sound hw hpos hc hlo hhi
  have hstep := isRootRem_karStep hw hpos hc hlo hhi
  have hrem : (karStep w m halfRem).2 ≤ 2 * (karStep w m halfRem).1 := (isRootRem_iff.1 hstep).2
  have hroot : (karStep w m halfRem).1 < 2 ^ (w / 2) := hstep.fst ▸ sqrt_lt_two_pow (by omega) hhi
  have hden : (karVars w m halfRem).den = 2 * (karVars w m halfRem).s1 := rfl
  have hden_ge : 2 ^ (w / 4) ≤ (karVars w m halfRem).den := hsound.half
  have hrange : 2 ^ (w / 2 + 1) ≤ 2 ^ w := Nat.pow_le_pow_right (by decide) (by omega)
  have hrest := hsound.rest_lt hs1_lt
  have hqq := Nat.mul_le_mul hsound.quot hsound.quot
  have hs := hsound.root_le hs1_lt
  have hsplit := two_pow_half_eq_quarter_sq hw
  rw [← hsplit] at hrest hqq hs
  rw [pow_succ'] at hrange
  have hrem_lt : (karStep w m halfRem).2 < 2 ^ w := by omega
  simp only [pow_succ']
  exact ⟨rfl, high_half_normalised hw hpos hlo hhi, ⟨hs1_ge, hs1_lt⟩, ⟨hr1, by omega⟩,
    karVars_num_lt hw hs1_lt hr1, ⟨hden_ge, by omega⟩, hsound.quot,
    Nat.mod_lt _ (hden_ge.trans_lt' (by positivity)), hs, hqq, hrest, ⟨hrem, by omega⟩,
    hsound.borrow_mod (by omega) hrem_lt⟩

/-- Settles O16: the shift by `even(clz n)` normalises a nonzero operand, and an even shift halves on the root. -/
theorem preconditionShiftExact : Obligations.PreconditionShiftExact := by
  intro w hw n h0 hn
  obtain ⟨hlo, hhi⟩ := precondition_shift_normalises (width_even_of_mem hw) h0 hn
  refine ⟨evenDown_mod_two _, hhi, hlo, fun s hs => ?_⟩
  rw [isRoot_iff_eq_sqrt] at hs ⊢
  rw [hs, sqrt_mul_two_pow_div n (two_mul_evenDown_div_two _)]

/-- Settles O17: the recursion, and the top level over any half-width functions that meet their contracts, return the
library's root; the 128-bit FP engine is such a top level. -/
theorem karEngineComputesIsqrt : Obligations.KarEngineComputesIsqrt := by
  refine ⟨fun l _ n hn => ?_, fun w hmem half halfRem hhalf hc n hn => ?_, fun n hn => ?_⟩
  · have hroot : IsRoot n (karIsqrt l n) := isRoot_iff_eq_sqrt.2 (karIsqrt_eq_sqrt l n hn)
    exact ⟨hroot, isRoot_lt_two_pow (levelBits_mod_two l) hn hroot⟩
  · obtain ⟨hw, hpos⟩ := step_width_of_mem hmem
    exact isRoot_iff_eq_sqrt.2
      (karTop_eq_sqrt hw hpos (fun x hx => isRoot_iff_eq_sqrt.1 (hhalf x hx)) hc hn)
  · exact isRoot_iff_eq_sqrt.2 (fpIsqrt_eq_sqrt (.inr rfl) hn)

end Sys2Proof.Machine
end

section
/-! SUPPORT. The signed commands by the sign of their operand: below zero an outcome without a root, otherwise that of
ISQRT.U on a value in the lower half of the range (R200, R204). -/

namespace Sys2Proof.Machine

open Sys2Proof.Claims

theorem bits_pos (w : Width) : 0 < w.bits := by cases w <;> decide

/-- The checked commands and their widths, as rows of the opcode map. -/
theorem shape_of_mem_checkedCommands {p : Instr × Nat} (hp : p ∈ checkedCommands) :
    p.1.shape.op = .chksqrtI ∧ p.1.shape.width.bits = p.2 := by
  revert p; decide

/-- The fatal commands and their widths, as rows of the opcode map. -/
theorem shape_of_mem_fatalCommands {p : Instr × Nat} (hp : p ∈ fatalCommands) :
    p.1.shape.op = .isqrtI ∧ p.1.shape.width.bits = p.2 := by
  revert p; decide

/-- The sign test reads bit W-1 of the latch (R204). -/
theorem msb_operand_iff (w : Width) (s : State) : (operand w.bits s.lopnd).msb = true ↔ Negative w.bits s := by
  rw [msb_operand (bits_pos w), Negative]

/-- An operand that is not negative lies in the lower half of the range. -/
theorem operandOf_lt_half {w : Width} {s : State} (h : ¬Negative w.bits s) : operandOf w.bits s < 2 ^ (w.bits - 1) := by
  rw [← msb_operand_iff, Bool.not_eq_true] at h
  rw [← toNat_operand]
  exact BitVec.toNat_lt_of_msb_false h

/-- R201: CHKSQRT.I of a negative operand yields Absent. -/
theorem rootOutcome_checked_of_negative {w : Width} {s : State} (h : Negative w.bits s) :
    rootOutcome .chksqrtI (operand w.bits s.lopnd) = .absent :=
  if_pos ((msb_operand_iff w s).2 h)

/-- R202: ISQRT.I of a negative operand yields DomainError. -/
theorem rootOutcome_fatal_of_negative {w : Width} {s : State} (h : Negative w.bits s) :
    rootOutcome .isqrtI (operand w.bits s.lopnd) = .domainError :=
  if_pos ((msb_operand_iff w s).2 h)

/-- R200: both signed operations delegate a non-negative operand. -/
theorem rootOutcome_signed_of_nonneg {op : Op} {w : Width} {s : State} (hop : op = .chksqrtI ∨ op = .isqrtI)
    (h : ¬Negative w.bits s) :
    rootOutcome op (operand w.bits s.lopnd) = rootOutcome .isqrtU (operand w.bits s.lopnd) := by
  rw [← msb_operand_iff] at h
  rcases hop with rfl | rfl <;> exact if_neg h

/-- A signed command of a non-negative operand is ISQRT.U of its width, whether its operand was written or not. -/
theorem exec_signed_of_nonneg {i : Instr} {s : State} (hop : i.shape.op = .chksqrtI ∨ i.shape.op = .isqrtI)
    (h : ¬Negative i.shape.width.bits s) :
    exec i s = runCommand i.shape.width.bits (rootOutcome .isqrtU) s := by
  rw [exec_eq_rootOutcome, runCommand, runCommand, rootOutcome_signed_of_nonneg hop h]

theorem exec_checked_negative_next {i : Instr} {s t : State} (hop : i.shape.op = .chksqrtI)
    (hneg : Negative i.shape.width.bits s) (h : exec i s = .next t) : t = complete 0 none true s := by
  rw [exec_next_eq_settle h, hop, rootOutcome_checked_of_negative hneg, settle]

theorem exec_fatal_negative_next {i : Instr} {s t : State} (hop : i.shape.op = .isqrtI)
    (hneg : Negative i.shape.width.bits s) (h : exec i s = .next t) : t = raiseFault .domain s.lcmd s := by
  rw [exec_next_eq_settle h, hop, rootOutcome_fatal_of_negative hneg, settle]

/-- A signed command of a non-negative operand that answers a next state writes the operand's root. -/
theorem exec_signed_nonneg_root {i : Instr} {s t : State} (hop : i.shape.op = .chksqrtI ∨ i.shape.op = .isqrtI)
    (hnonneg : ¬Negative i.shape.width.bits s) (h : exec i s = .next t) :
    IsRoot (operandOf i.shape.width.bits s) t.root.toNat := by
  have ht := exec_next_eq_settle h
  rw [rootOutcome_signed_of_nonneg hop hnonneg, rootOutcome, settle] at ht
  exact (exec_root_isRoot h (by rw [ht, complete_engine]) (by rw [ht, complete_status, Status_complete_absent])).1

/-- R203: whatever the operand's sign, the square of a completed signed command's ROOT is in the lower half of the
range. -/
theorem exec_signed_root_sq_lt {i : Instr} {s t : State} (hop : i.shape.op = .chksqrtI ∨ i.shape.op = .isqrtI)
    (h : exec i s = .next t) (hidle : t.engine = .idle) :
    t.root.toNat * t.root.toNat < 2 ^ (i.shape.width.bits - 1) := by
  by_cases hneg : Negative i.shape.width.bits s
  · rcases hop with hchecked | hfatal
    · rw [exec_checked_negative_next hchecked hneg h]
      exact Nat.two_pow_pos _
    · simp [exec_fatal_negative_next hfatal hneg h] at hidle
  · exact (exec_signed_nonneg_root hop hneg h).1.trans_lt (operandOf_lt_half hneg)

end Sys2Proof.Machine
end

section
/-! SETTLED. The obligations of 44_signed.md. -/

namespace Sys2Proof.Machine

open Sys2Proof.Claims

/-- Settles O23: a negative operand makes the outcome Absent, and completing it is this next state. -/
theorem checkedNegativeIsAbsent : Obligations.CheckedNegativeIsAbsent := by
  intro p hp s hwords hneg
  obtain ⟨hop, hbits⟩ := shape_of_mem_checkedCommands hp
  rw [← hbits] at hwords hneg
  have hwritten := (operandWritten_iff _ s.lopndWritten (bits_pos _)).2 hwords
  rw [exec_eq_rootOutcome, runCommand_of_written _ s hwritten, hop, rootOutcome_checked_of_negative hneg]
  rfl

/-- Settles O31: by the sign of the operand, with the outcome of ISQRT.U, Absent or DomainError. -/
theorem signedAgreesWithUnsigned : Obligations.SignedAgreesWithUnsigned := by
  intro u c f s hu hc hf
  have hfwidth : f.shape.width = c.shape.width := by rw [hf]
  have hfop : f.shape.op = .isqrtI := by rw [hf]
  refine ⟨fun hnonneg => ?_, fun hneg => ⟨fun t ht => ?_, fun t ht => ?_⟩⟩
  · have hunsigned : exec u s = runCommand c.shape.width.bits (rootOutcome .isqrtU) s := by
      rw [exec_eq_rootOutcome, hu]
    rw [hunsigned, exec_signed_of_nonneg (.inl hc) hnonneg,
      exec_signed_of_nonneg (.inr hfop) (hfwidth ▸ hnonneg), hfwidth]
    exact ⟨rfl, rfl⟩
  · rw [exec_checked_negative_next hc hneg ht]
    exact ⟨rfl, rfl⟩
  · rw [exec_fatal_negative_next hfop (hfwidth ▸ hneg) ht]
    exact ⟨rfl, rfl⟩

/-- Settles O32: a root whose square is below 2^(W-1) is itself below it, so its bit W-1 is 0. -/
theorem signedRootFits : Obligations.SignedRootFits := by
  refine ⟨fun p hp s t h hidle => ?_, by decide⟩
  have hshape : (p.1.shape.op = .chksqrtI ∨ p.1.shape.op = .isqrtI) ∧ p.1.shape.width.bits = p.2 :=
    (List.mem_append.1 hp).elim (fun hc => (shape_of_mem_checkedCommands hc).imp_left .inl)
      (fun hf => (shape_of_mem_fatalCommands hf).imp_left .inr)
  obtain ⟨hop, hbits⟩ := hshape
  have hsq := exec_signed_root_sq_lt hop h hidle
  rw [hbits] at hsq
  have hlt := (Nat.le_mul_self _).trans_lt hsq
  exact ⟨Nat.le_pred_of_lt hsq, hlt, Nat.testBit_lt_two_pow hlt⟩

end Sys2Proof.Machine
end

section
/-! SUPPORT. Faults and the halted unit: what a fault leaves for a host to read (R256), that a halted unit stays as it is
for the rest of a run (R258, R259), a host that polls it, and the verdict on a run (R291). -/

namespace Sys2Proof.Machine

open Sys2Proof.Claims

/-! #### What a fault leaves -/

/-- `Fault(c, w)` as one update (R256). -/
theorem raiseFault_eq_faulted (c : Cause) (w : Word32) (s : State) : raiseFault c w s = faulted c w s := rfl

/-- The STATUS word after a fault (R256). -/
theorem word_fail (c : Cause) (t : Status) : (t.fail c).word = (c.code.setWidth 32 <<< 4) ||| 8#32 := by
  change Status.word ⟨false, false, false, true, c⟩ = _
  cases c <;> decide

/-- Below CMD the window holds the words of OPND, ROOT and REM only (R51). -/
theorem windowReg_of_lt_cmd {off : Nat} (h : off < 0x30) :
    ∃ k, windowReg off = .opnd k ∨ windowReg off = .root k ∨ windowReg off = .rem k := by
  refine ⟨wordIndex off, ?_⟩
  unfold windowReg
  by_cases hopnd : off < 0x10
  · exact .inl (if_pos hopnd)
  · rw [if_neg hopnd]
    by_cases hroot : off < 0x20
    · exact .inr (.inl (if_pos hroot))
    · exact .inr (.inr (by rw [if_neg hroot, if_pos h]))

/-- A fault leaves what the data registers read (R256). -/
theorem memRead_faulted_of_lt_cmd (c : Cause) (w : Word32) (s : State) {off : Nat} (h : off < 0x30) :
    memRead off (faulted c w s) = memRead off s := by
  obtain ⟨k, hreg | hreg | hreg⟩ := windowReg_of_lt_cmd h <;> rw [memRead, memRead, hreg] <;> rfl

/-! #### The halted unit -/

/-- The unit holds the same in both states: they differ at most in the host's own fields. -/
def State.SameUnit (s t : State) : Prop :=
  ∃ ops answers turns, t = { s with hostOps := ops, hostReads := answers, turns := turns }

theorem State.SameUnit.refl (s : State) : s.SameUnit s := ⟨s.hostOps, s.hostReads, s.turns, rfl⟩

theorem State.SameUnit.trans {s t u : State} (hst : s.SameUnit t) (htu : t.SameUnit u) : s.SameUnit u := by
  obtain ⟨_, _, _, rfl⟩ := hst
  obtain ⟨ops, answers, turns, rfl⟩ := htu
  exact ⟨ops, answers, turns, rfl⟩

theorem State.SameUnit.engine_eq {s t : State} (h : s.SameUnit t) : t.engine = s.engine := by
  obtain ⟨_, _, _, rfl⟩ := h
  rfl

theorem State.SameUnit.status_eq {s t : State} (h : s.SameUnit t) : t.status = s.status := by
  obtain ⟨_, _, _, rfl⟩ := h
  rfl

/-- No engine step is enabled unless a command is in flight (R95). -/
theorem nextAgent_ne_engine {s : State} (h : s.engine ≠ .busy) : nextAgent s ≠ some .engine := by
  rw [nextAgent, if_neg (by rwa [engineReady_iff])]
  split <;> simp

/-- R259: no step changes anything that a halted unit holds. -/
theorem sameUnit_of_step_halted {s t : State} (hengine : s.engine = .halted) (hhalted : s.status.halted = true)
    (h : step s = .next t) : s.SameUnit t := by
  obtain ⟨hbusy, -⟩ | ⟨s1, hs1, ht⟩ := step_next_kinds h
  · simp [hengine] at hbusy
  · obtain rfl | ⟨hrun, -⟩ := ht
    · obtain ⟨ops, answers, rfl⟩ | rfl := hs1
      · exact ⟨ops, answers, _, rfl⟩
      · exact .refl _
    · simp [hhalted] at hrun

/-- R258: no run changes anything that a halted unit holds. -/
theorem sameUnit_of_run_halted {k : Nat} {s t : State} (hengine : s.engine = .halted)
    (hhalted : s.status.halted = true) (h : Host.Core.run core k s = .next t) : s.SameUnit t := by
  induction k generalizing s with
  | zero =>
    obtain rfl : s = t := Host.Outcome.next.inj h
    exact .refl s
  | succ k ih =>
    obtain ⟨u, hstep, hrun⟩ := run_next_inv h
    have hu := sameUnit_of_step_halted hengine hhalted hstep
    exact hu.trans (ih (hu.engine_eq.trans hengine) (hu.status_eq ▸ hhalted) hrun)

/-! #### A host that polls -/

/-- One round of a poll loop, when the word it reads has a value (R91). -/
theorem pollWord_of_memRead {op : HostOp} {off : Nat} {mask want v : Word32} {rest : List HostOp} {s : State}
    (h : memRead off s = some v) :
    pollWord op off mask want rest s =
      .next { s with hostOps := if v &&& mask = want then rest else op :: rest, hostReads := s.hostReads ++ [v] } := by
  simp [pollWord, h, deliver]

/-- Where the host may move, one round of its poll loop is the whole step when the word has a value (R91, R291). -/
theorem step_poll {s : State} {off : Int} {mask want v : Word32} {rest : List HostOp} (hmoves : HostMoves s)
    (hops : s.hostOps = .poll off mask want :: rest) (hwf : (HostOp.poll off mask want).wf = true)
    (hread : memRead off.toNat s = some v) :
    step s = .next { s with hostOps := if v &&& mask = want then rest else s.hostOps, turns := s.turns.tail,
                            hostReads := s.hostReads ++ [v] } := by
  have hready : hostReady s = true := by rw [hostReady, hops]; exact hwf
  rw [step_of_hostMoves hmoves hready, hostStep, popTurn_hostOps, hops]
  exact pollWord_of_memRead (s := popTurn s) hread

/-- DONE is bit 1 of the STATUS word (R27). -/
theorem getLsbD_word_one (t : Status) : t.word.getLsbD 1 = t.done := by
  simp only [Status.word, BitVec.getLsbD_append]
  simp

/-- The condition of a poll for DONE (R291). -/
theorem done_of_word_and_two {t : Status} (h : t.word &&& 2#32 = 2#32) : t.done = true := by
  rw [← getLsbD_word_one]
  simpa using congrArg (BitVec.getLsbD · 1) h

/-- A poll for DONE of a unit that is not BUSY and not DONE goes round again (R291). -/
theorem step_pollDone {s : State} {rest : List HostOp} (hengine : s.engine ≠ .busy) (hdone : s.status.done = false)
    (hops : s.hostOps = opPollDone ++ rest) :
    ∃ t, step s = .next t ∧ s.SameUnit t ∧ t.hostOps = s.hostOps := by
  have hagain : ¬s.status.word &&& 2#32 = 2#32 := fun h => by simp [done_of_word_and_two h] at hdone
  exact ⟨_, step_poll (.inl hengine) hops rfl rfl, ⟨_, _, _, rfl⟩, if_neg hagain⟩

/-- A poll for DONE of a unit that is not BUSY and not DONE is still to be done after any number of steps. -/
theorem run_pollDone {s : State} {rest : List HostOp} (hengine : s.engine ≠ .busy) (hdone : s.status.done = false)
    (hops : s.hostOps = opPollDone ++ rest) (k : Nat) :
    ∃ t, Host.Core.run core k s = .next t ∧ t.hostOps = opPollDone ++ rest := by
  induction k generalizing s with
  | zero => exact ⟨s, rfl, hops⟩
  | succ k ih =>
    obtain ⟨u, hstep, hsame, hu⟩ := step_pollDone hengine hdone hops
    rw [run_next hstep]
    exact ih (hsame.engine_eq ▸ hengine) (hsame.status_eq ▸ hdone) (hu.trans hops)

/-! #### The verdict on a run -/

/-- A run goes on from where its first j steps came to. -/
theorem run_add {j : Nat} {s t : State} (h : Host.Core.run core j s = .next t) (k : Nat) :
    Host.Core.run core (k + j) s = Host.Core.run core k t := by
  induction j generalizing s with
  | zero =>
    obtain rfl : s = t := Host.Outcome.next.inj h
    rfl
  | succ j ih =>
    obtain ⟨u, hstep, hrun⟩ := run_next_inv h
    exact (run_next hstep).trans (ih hrun)

/-- A run is judged by the state it has reached, or by how it has stopped: before an access that has no step (R54), in a
model fault (R262), or in a refusal. -/
theorem runVerdict_cases (k : Nat) (s : State) :
    (∃ t, Host.Core.run core k s = .next t ∧ runVerdict k s = verdictOf t) ∨
      (Host.Core.run core k s = .fault .inadmissibleAccess ∧ runVerdict k s = .stuck) ∨
      (∃ f, f ≠ .inadmissibleAccess ∧ Host.Core.run core k s = .fault f ∧ runVerdict k s = .modelFault f) ∨
      ∃ r, Host.Core.run core k s = .refused r ∧ runVerdict k s = .refused r := by
  unfold runVerdict
  cases Host.Core.run core k s with
  | next t => exact .inl ⟨t, rfl, rfl⟩
  | fault f =>
    by_cases hf : f = Fault.inadmissibleAccess
    · exact .inr (.inl ⟨congrArg _ hf, if_pos hf⟩)
    · exact .inr (.inr (.inl ⟨f, hf, rfl, if_neg hf⟩))
  | refused r => exact .inr (.inr (.inr ⟨r, rfl, rfl⟩))

/-- The state a run has reached is running, final or that of a faulted run (R291). -/
theorem verdictOf_cases (t : State) :
    (¬t.RunOver ∧ verdictOf t = .running t) ∨
      (t.RunOver ∧ t.status.halted = false ∧ verdictOf t = .final t) ∨
      (t.RunOver ∧ t.status.halted = true ∧ verdictOf t = .faulted t) := by
  unfold verdictOf
  split
  · next hover =>
    split
    · next hfaulted => exact .inr (.inr ⟨hover, hfaulted, rfl⟩)
    · next hfine => exact .inr (.inl ⟨hover, Bool.eq_false_of_not_eq_true hfine, rfl⟩)
  · next hgoing => exact .inl ⟨hgoing, rfl⟩

theorem verdictOf_eq_final_iff {t u : State} :
    verdictOf t = .final u ↔ t = u ∧ t.RunOver ∧ t.status.halted = false := by
  obtain ⟨hgoing, hv⟩ | ⟨hover, hrun, hv⟩ | ⟨-, hhalted, hv⟩ := verdictOf_cases t <;> rw [hv]
  · simp [hgoing]
  · exact ⟨fun h => ⟨RunVerdict.final.inj h, hover, hrun⟩, fun ⟨h, _⟩ => congrArg _ h⟩
  · simp [hhalted]

theorem verdictOf_eq_faulted_iff {t u : State} :
    verdictOf t = .faulted u ↔ t = u ∧ t.RunOver ∧ t.status.halted = true := by
  obtain ⟨hgoing, hv⟩ | ⟨-, hrun, hv⟩ | ⟨hover, hhalted, hv⟩ := verdictOf_cases t <;> rw [hv]
  · simp [hgoing]
  · simp [hrun]
  · exact ⟨fun h => ⟨RunVerdict.faulted.inj h, hover, hhalted⟩, fun ⟨h, _⟩ => congrArg _ h⟩

/-- A verdict that only a state has, and only t when it meets P, is that of a run exactly when the run has reached t. -/
theorem runVerdict_eq_iff_of_state {k : Nat} {s t : State} {v : RunVerdict} {P : State → Prop}
    (hstate : ∀ u, verdictOf u = v ↔ u = t ∧ P u) (hstuck : .stuck ≠ v) (hmodel : ∀ f, .modelFault f ≠ v)
    (hrefused : ∀ r, .refused r ≠ v) :
    runVerdict k s = v ↔ Host.Core.run core k s = .next t ∧ P t := by
  obtain ⟨u, hrun, hv⟩ | ⟨hrun, hv⟩ | ⟨f, -, hrun, hv⟩ | ⟨r, hrun, hv⟩ := runVerdict_cases k s <;> rw [hv, hrun]
  · constructor
    · intro h
      obtain ⟨rfl, hend⟩ := (hstate u).1 h
      exact ⟨rfl, hend⟩
    · rintro ⟨hu, hend⟩
      obtain rfl := Host.Outcome.next.inj hu
      exact (hstate _).2 ⟨rfl, hend⟩
  · exact ⟨fun h => absurd h hstuck, nofun⟩
  · exact ⟨fun h => absurd h (hmodel f), nofun⟩
  · exact ⟨fun h => absurd h (hrefused r), nofun⟩

/-- R291: a run comes to a final state exactly when it has ended there unhalted. -/
theorem runVerdict_eq_final_iff {k : Nat} {s t : State} :
    runVerdict k s = .final t ↔ Host.Core.run core k s = .next t ∧ t.RunOver ∧ t.status.halted = false :=
  runVerdict_eq_iff_of_state (fun _ => verdictOf_eq_final_iff) nofun nofun nofun

/-- R291: a run ends faulted in a state exactly when it has ended there halted. -/
theorem runVerdict_eq_faulted_iff {k : Nat} {s t : State} :
    runVerdict k s = .faulted t ↔ Host.Core.run core k s = .next t ∧ t.RunOver ∧ t.status.halted = true :=
  runVerdict_eq_iff_of_state (fun _ => verdictOf_eq_faulted_iff) nofun nofun nofun

/-- R262, R291: a run ends in a model fault exactly when it has raised it. -/
theorem runVerdict_eq_modelFault_iff {k : Nat} {s : State} {f : Fault} (hf : f ≠ .inadmissibleAccess) :
    runVerdict k s = .modelFault f ↔ Host.Core.run core k s = .fault f := by
  obtain ⟨t, hrun, hv⟩ | ⟨hrun, hv⟩ | ⟨g, -, hrun, hv⟩ | ⟨r, hrun, hv⟩ := runVerdict_cases k s <;> rw [hv, hrun]
  · obtain ⟨-, hv⟩ | ⟨-, -, hv⟩ | ⟨-, -, hv⟩ := verdictOf_cases t <;> rw [hv] <;> exact ⟨nofun, nofun⟩
  · exact ⟨nofun, fun h => absurd (Host.Outcome.fault.inj h).symm hf⟩
  · exact ⟨fun h => congrArg _ (RunVerdict.modelFault.inj h), fun h => congrArg _ (Host.Outcome.fault.inj h)⟩
  · exact ⟨nofun, nofun⟩

/-- A run whose host still has something to do is running (R291). -/
theorem runVerdict_of_hostOps_ne_nil {k : Nat} {s t : State} (h : Host.Core.run core k s = .next t)
    (hops : t.hostOps ≠ []) : runVerdict k s = .running t := by
  rw [runVerdict, h]
  exact if_neg fun hover => hops hover.1

/-- The verdict on a run is that on the rest of it, from where its first j steps came to. -/
theorem runVerdict_add {j : Nat} {s t : State} (h : Host.Core.run core j s = .next t) (k : Nat) :
    runVerdict (k + j) s = runVerdict k t := by
  rw [runVerdict, runVerdict, run_add h]

/-- R291: a run whose host polls for DONE a unit that is not BUSY and not DONE is running after any number of steps. -/
theorem runVerdict_pollDone {s : State} {rest : List HostOp} (hengine : s.engine ≠ .busy)
    (hdone : s.status.done = false) (hops : s.hostOps = opPollDone ++ rest) (k : Nat) :
    ∃ t, runVerdict k s = .running t := by
  obtain ⟨t, hrun, ht⟩ := run_pollDone hengine hdone hops k
  exact ⟨t, runVerdict_of_hostOps_ne_nil hrun (by simp [ht, opPollDone])⟩

end Sys2Proof.Machine
end

section
/-! SETTLED. The obligations of 60_exceptions.md. -/

namespace Sys2Proof.Machine

open Sys2Proof.Claims

/-- Settles O37: a fault is one update of the state, and each cause has its own STATUS word. -/
theorem faultEntry : Obligations.FaultEntry :=
  ⟨fun c w s => ⟨raiseFault_eq_faulted c w s, word_fail c s.status⟩,
    fun _ s => ⟨word_fail .domain s.status, word_fail .illegal s.status, word_fail .protocol s.status⟩⟩

/-- Settles O25: an ISQRT.I of a negative operand takes the fault, and every other command that answers a next state
completes, which leaves HALTED and CAUSE alone. -/
theorem domainExactlyFatalNegative : Obligations.DomainExactlyFatalNegative := by
  intro i s t h
  by_cases hdomain : i.shape.op = .isqrtI ∧ Negative i.shape.width.bits s
  · obtain ⟨hop, hneg⟩ := hdomain
    obtain rfl := exec_fatal_negative_next hop hneg h
    exact .inl ⟨raiseFault_eq_faulted _ _ s, rfl, hop, hneg⟩
  · obtain ⟨-, ht⟩ := exec_next_cases h
    have hsign : ¬(i.shape.op = .isqrtI ∧ (operand i.shape.width.bits s.lopnd).msb = true) := by
      rwa [msb_operand_iff]
    obtain ⟨r, m, absent, hcomplete, -⟩ := settle_performShape_completes s hsign
    rw [ht, hcomplete]
    exact .inr ⟨rfl, rfl, rfl, hdomain⟩

/-- Settles O43: the write is the fault PROTOCOL, and no run of the halted unit it leaves changes what the unit holds. -/
theorem protocolAbandonsCommand : Obligations.ProtocolAbandonsCommand := by
  intro s v hrun hbusy
  have hfault := (commandWriteEffect s v hrun).1 hbusy
  refine ⟨hfault, fun k t h => ?_⟩
  rw [hfault] at h
  obtain ⟨_, _, _, rfl⟩ := sameUnit_of_run_halted (s := faulted .protocol v s) rfl rfl h
  exact ⟨rfl, rfl, rfl, rfl, rfl, rfl⟩

/-- The unit of `unwaitedPoll` after its three writes: the second CMD write has raised PROTOCOL, and the poll is left. -/
def unwaitedHalted : State :=
  { faulted .protocol 0x10#32 (latchCommand 4#32 (writeOpnd 0 7#32 State.reset)) with hostOps := opPollDone }

theorem run_unwaitedPoll : Host.Core.run core 3 unwaitedPoll = .next unwaitedHalted := rfl

/-- R291: the poll for DONE after a second command issued without waiting never ends. -/
theorem unwaitedPoll_hangs : unwaitedPoll.Hangs := by
  refine ⟨⟨rfl, rfl, rfl⟩, fun k => ?_⟩
  match k with
  | 0 | 1 | 2 => exact ⟨_, runVerdict_of_hostOps_ne_nil rfl nofun⟩
  | k + 3 =>
    rw [runVerdict_add run_unwaitedPoll k]
    exact runVerdict_pollDone (s := unwaitedHalted) (rest := []) nofun rfl rfl k

/-- Settles O53: a halted unit stays as it is for the rest of a run, so that a run that has halted cannot end unhalted and
a poll for DONE never sees it. -/
theorem haltedIsFinal : Obligations.HaltedIsFinal := by
  refine ⟨fun s hs hhalted => ?_, fun c w s => ?_, fun _ => rfl, fun k s t => ?_,
    fun _ _ _ hf => runVerdict_eq_modelFault_iff hf, fun k s t hs hhalted hfinal => ?_,
    fun k s rest hs hhalted hops => ?_, unwaitedPoll_hangs⟩
  · have hengine := hs.halted_iff.1 hhalted
    refine ⟨fun off v => memWrite_of_halted off v hhalted, nextAgent_ne_engine (by simp [hengine]), fun t h => ?_⟩
    obtain ⟨_, _, _, rfl⟩ := sameUnit_of_step_halted hengine hhalted h
    exact ⟨rfl, hengine, rfl, rfl, rfl, rfl, rfl, rfl, rfl⟩
  · exact ⟨fun off h => memRead_faulted_of_lt_cmd c w s h, congrArg some (word_fail c s.status), rfl⟩
  · rw [runVerdict_eq_final_iff, runVerdict_eq_faulted_iff, and_assoc, and_assoc]
    exact ⟨.rfl, .rfl⟩
  · obtain ⟨hrun, -, hunhalted⟩ := runVerdict_eq_final_iff.1 hfinal
    have hsame := sameUnit_of_run_halted (hs.halted_iff.1 hhalted) hhalted hrun
    simp [hsame.status_eq, hhalted] at hunhalted
  · exact runVerdict_pollDone (by simp [hs.halted_iff.1 hhalted]) (hs.halted_clear hhalted).1 hops k

end Sys2Proof.Machine
end

section
/-! SETTLED. The host write to OPND beside a command in flight, of 70_reset_and_hazards.md: the engine step reads only
the latch (R35, R95), and what it writes is apart from OPND. -/

namespace Sys2Proof.Machine

/-- No outcome of a command reads or writes OPND (R96, R256). -/
theorem settle_writeOpnd (o : CmdOutcome) (k : Fin 4) (v : Word32) (s : State) :
    settle o (writeOpnd k v s) = writeOpnd k v (settle o s) := by
  cases o with
  | root r => rfl
  | rootRem r m => rfl
  | absent => rfl
  | domainError => rfl

/-- The two answers of a command, each beside its answer after an OPND write: the operand is the latched one, so the
written-flag check decides alike and the outcome is the same (R35, R95). -/
theorem exec_writeOpnd_cases (i : Instr) (k : Fin 4) (v : Word32) (s : State) :
    (∃ t, exec i s = .next t ∧ exec i (writeOpnd k v s) = .next (writeOpnd k v t)) ∨
      ∃ f, exec i s = .fault f ∧ exec i (writeOpnd k v s) = .fault f := by
  rw [exec_eq_runCommand, exec_eq_runCommand]
  cases hwritten : operandWritten i.shape.width.bits s.lopndWritten with
  | true =>
    rw [runCommand_of_written _ s hwritten, runCommand_of_written _ (writeOpnd k v s) hwritten]
    exact .inl ⟨_, rfl, congrArg _ (settle_writeOpnd _ k v s)⟩
  | false => exact .inr ⟨_, runCommand_of_unwritten _ s hwritten, runCommand_of_unwritten _ (writeOpnd k v s) hwritten⟩

/-- The two answers of the engine step, each beside its answer after an OPND write: the latched word is the same one, so
it decodes alike (R35, R95). -/
theorem engineStep_writeOpnd_cases (k : Fin 4) (v : Word32) (s : State) :
    (∃ t, engineStep s = .next t ∧ engineStep (writeOpnd k v s) = .next (writeOpnd k v t)) ∨
      ∃ f, engineStep s = .fault f ∧ engineStep (writeOpnd k v s) = .fault f := by
  unfold engineStep
  rw [writeOpnd_lcmd]
  cases decode s.lcmd with
  | illegal why => exact .inl ⟨_, rfl, rfl⟩
  | ok i => exact exec_writeOpnd_cases i k v s

/-- Settles O55: in each of the two cases the engine step answers as the statement says. -/
theorem opndWriteCommutesWithEngine : Obligations.OpndWriteCommutesWithEngine := by
  intro s k v
  rcases engineStep_writeOpnd_cases k v s with ⟨t, hnext, hwrite⟩ | ⟨f, hfault, hwrite⟩
  · rw [hnext, hwrite]
    exact ⟨fun _ h => Host.Outcome.next.inj h ▸ rfl, nofun⟩
  · rw [hfault, hwrite]
    exact ⟨nofun, fun _ h => h⟩

end Sys2Proof.Machine
end

section
/-! SUPPORT. The two invariants of the machine and the operations that keep them: the promises of 10_state.md, and the
bounds of R10 on the results. -/

namespace Sys2Proof.Machine

open Sys2Proof.Claims

/-! #### The relations between STATUS, the engine state, FCMD and the flags -/

section Consistent
variable {s : State} (hs : s.Consistent)
include hs

/-- The promises are about the unit alone. -/
theorem State.Consistent.of_sameUnit {t : State} (h : s.SameUnit t) : t.Consistent := by
  obtain ⟨_, _, _, rfl⟩ := h
  exact ⟨hs.busy_iff, hs.halted_iff, hs.cause_iff, hs.done_busy, hs.halted_clear, hs.fcmd_zero, hs.root_whole,
    hs.rem_whole, hs.done_root, hs.absent_root⟩

theorem consistent_raiseFault {c : Cause} (hc : c ≠ .none) (w : Word32) :
    (raiseFault c w s).Consistent where
  busy_iff := by simp
  halted_iff := by simp
  cause_iff := by simp [hc]
  done_busy := by simp
  halted_clear := by simp
  fcmd_zero := by simp
  root_whole := hs.root_whole
  rem_whole := hs.rem_whole
  done_root := by simp
  absent_root := by simp

/-- A unit with a command in flight is not halted. -/
theorem State.Consistent.not_halted_of_busy (hbusy : s.engine = .busy) : s.status.halted = false := by
  rw [← Bool.not_eq_true, hs.halted_iff, hbusy]
  exact nofun

/-- A unit with neither a command in flight nor a fault is IDLE. -/
theorem State.Consistent.idle_of_not_halted (hrun : s.status.halted = false) (hbusy : s.engine ≠ .busy) :
    s.engine = .idle := by
  have hhalted : s.engine ≠ .halted := fun h => by simp [hs.halted_iff.2 h] at hrun
  cases he : s.engine with
  | idle => rfl
  | busy => exact absurd he hbusy
  | halted => exact absurd he hhalted

/-- A completed command writes all of ROOT, and all of REM or none of it (R96). -/
theorem consistent_complete (hbusy : s.engine = .busy) {r : Nat} (m : Option Nat) {a : Bool}
    (ha : a = true → r = 0) : (complete r m a s).Consistent := by
  have hrun := hs.not_halted_of_busy hbusy
  exact {
    busy_iff := by simp
    halted_iff := by simp [hrun]
    cause_iff := hs.cause_iff
    done_busy := by simp
    halted_clear := by simp [hrun]
    fcmd_zero := fun _ => by rw [complete_fcmd, hs.fcmd_zero hrun]
    root_whole := .inl rfl
    rem_whole := by
      cases m with
      | none => exact hs.rem_whole
      | some m => exact .inl rfl
    done_root := fun _ => rfl
    absent_root := fun h => ⟨by rw [complete_root, ha h], rfl⟩ }

theorem consistent_writeOpnd (k : Fin 4) (v : Word32) : (writeOpnd k v s).Consistent :=
  ⟨hs.busy_iff, hs.halted_iff, hs.cause_iff, hs.done_busy, hs.halted_clear, hs.fcmd_zero, hs.root_whole,
    hs.rem_whole, hs.done_root, hs.absent_root⟩

/-- An accepted command clears DONE, and ABSENT stays beside the ROOT it speaks of (R93). -/
theorem consistent_latchCommand (hrun : s.status.halted = false) (v : Word32) :
    (latchCommand v s).Consistent where
  busy_iff := by simp
  halted_iff := by simp [hrun]
  cause_iff := hs.cause_iff
  done_busy := by simp
  halted_clear := by simp [hrun]
  fcmd_zero := hs.fcmd_zero
  root_whole := hs.root_whole
  rem_whole := hs.rem_whole
  done_root := by simp
  absent_root := hs.absent_root

theorem consistent_commandWrite (hrun : s.status.halted = false) (v : Word32) :
    (commandWrite v s).Consistent := by
  rcases commandWrite_cases v s with ⟨-, h⟩ | ⟨-, h⟩ <;> rw [h]
  · exact consistent_raiseFault hs (by decide) v
  · exact consistent_latchCommand hs hrun v

end Consistent

/-! #### What a step can do, up to the host's own fields -/

theorem sameUnit_popTurn (s : State) : s.SameUnit (popTurn s) := ⟨s.hostOps, s.hostReads, s.turns.tail, rfl⟩

/-- `step_next_kinds` with what the host's own fields become left open: an engine step, which faults or completes; or
a step that leaves the unit alone, stores one OPND word, or writes CMD. -/
theorem step_next_sameUnit {s t : State} (h : step s = .next t) :
    (∃ s1, s.SameUnit s1 ∧ s.engine = .busy ∧
      ((∃ c, (c = .illegal ∨ c = .domain) ∧ t = raiseFault c s.lcmd s1) ∨
        ∃ r m a, t = complete r m a s1 ∧ (a = true → r = 0))) ∨
      ∃ s1, s.SameUnit s1 ∧
        (t = s1 ∨ (s.status.halted = false ∧
          ((∃ k v, t = writeOpnd k v s1) ∨
            ∃ v rest, s.hostOps = .access (.write 0x30 4 v) :: rest ∧ t = commandWrite v s1))) := by
  rcases step_next_kinds h with ⟨hbusy, hkind⟩ | ⟨s1, hs1, hkind⟩
  · exact .inl ⟨_, sameUnit_popTurn s, hbusy, hkind⟩
  · refine .inr ⟨s1, ?_, hkind⟩
    rcases hs1 with ⟨ops, answers, rfl⟩ | rfl
    · exact ⟨ops, answers, _, rfl⟩
    · exact .refl _

/-! #### The bounds on the results -/

/-- An outcome within the bounds of R10 at the largest width. -/
def CmdOutcome.Fits : CmdOutcome → Prop
  | .root r => r < 2 ^ 64
  | .rootRem r m => r < 2 ^ 64 ∧ m ≤ 2 * r
  | .absent => True
  | .domainError => True

/-- Settling an outcome within the bounds keeps the results within them. -/
theorem State.ResultsFit.settle {s : State} (hs : s.ResultsFit) {o : CmdOutcome} (ho : o.Fits) :
    (settle o s).ResultsFit := by
  obtain ⟨hroot, hrem⟩ := hs
  cases o with
  | root r =>
    have hr : r < 2 ^ 64 := ho
    refine ⟨?_, hrem⟩
    show (BitVec.ofNat 128 r).toNat < _
    rw [BitVec.toNat_ofNat, Nat.mod_eq_of_lt (by omega)]
    exact hr
  | rootRem r m =>
    obtain ⟨hr, hm⟩ : r < 2 ^ 64 ∧ m ≤ 2 * r := ho
    refine ⟨?_, ?_⟩
    · show (BitVec.ofNat 128 r).toNat < _
      rw [BitVec.toNat_ofNat, Nat.mod_eq_of_lt (by omega)]
      exact hr
    · show (BitVec.ofNat 128 m).toNat ≤ _
      rw [BitVec.toNat_ofNat, Nat.mod_eq_of_lt (by omega)]
      omega
  | absent => exact ⟨Nat.two_pow_pos 64, hrem⟩
  | domainError => exact ⟨hroot, hrem⟩

/-- Every command's outcome is a root of an operand of at most 128 bits, and its remainder, or has neither (R10). -/
theorem fits_rootOutcome (op : Op) {w : Nat} (hw : w ≤ 128) (a : BitVec w) : (rootOutcome op a).Fits := by
  have hroot : Nat.sqrt a.toNat < 2 ^ 64 :=
    sqrt_lt_two_pow (w := 128) rfl (a.isLt.trans_le (Nat.pow_le_pow_right (by decide) hw))
  cases op with
  | isqrtU => exact hroot
  | isqrtremU => exact ⟨hroot, (isRootRem_iff.1 rfl).2⟩
  | chksqrtI | isqrtI =>
    simp only [rootOutcome]
    split
    · trivial
    · exact hroot

theorem bits_le (w : Width) : w.bits ≤ 128 := by cases w <;> decide

/-- The engine step keeps the results within their bounds: a fault leaves them, a command writes its outcome (R95). -/
theorem engineStep_next_resultsFit {s t : State} (hs : s.ResultsFit) (h : engineStep s = .next t) : t.ResultsFit := by
  rcases engineStep_cases s with ⟨-, h'⟩ | ⟨i, -, h'⟩ <;> rw [h'] at h
  · obtain rfl := Host.Outcome.next.inj h
    exact hs
  · rw [exec_next_eq_settle h]
    exact hs.settle (fits_rootOutcome _ (bits_le _) _)

/-- No host write changes a result (R56, R93). -/
theorem memWrite_results (off : Nat) (v : Word32) (s : State) :
    (memWrite off v s).root = s.root ∧ (memWrite off v s).rem = s.rem := by
  rcases memWrite_cases off v s with h | ⟨-, ⟨k, -, h⟩ | ⟨-, h⟩⟩
  · rw [h]; exact ⟨rfl, rfl⟩
  · rw [h]; exact ⟨rfl, rfl⟩
  · rcases commandWrite_cases v s with ⟨-, h'⟩ | ⟨-, h'⟩ <;> rw [h, h'] <;> exact ⟨rfl, rfl⟩

/-- No host step changes a result. -/
theorem hostStep_next_results {s t : State} (h : hostStep s = .next t) : t.root = s.root ∧ t.rem = s.rem := by
  rcases hostStep_next h with ⟨-, rfl⟩ | ⟨_, _, _, _, -, -, rfl⟩ | ⟨off, _, v, rest, -, rfl⟩ |
    ⟨_, _, _, _, _, _, -, -, -, rfl⟩
  · exact ⟨rfl, rfl⟩
  · exact ⟨rfl, rfl⟩
  · exact memWrite_results off.toNat v { s with hostOps := rest }
  · exact ⟨rfl, rfl⟩

/-- Where nobody can move, a step that answers leaves the state. -/
theorem waitStep_next {s t : State} (h : waitStep s = .next t) : t = s := by
  unfold waitStep at h
  split at h
  · exact (Host.Outcome.next.inj h).symm
  · cases h

end Sys2Proof.Machine
end

section
/-! SETTLED. The invariants of the whole machine (10_state.md, 00_scope.md R10). -/

namespace Sys2Proof.Machine

open Sys2Proof.Claims

/-- Settles O50: each kind of step keeps the promises. -/
theorem stepKeepsConsistent : Obligations.StepKeepsConsistent := by
  intro s t hs h
  rcases step_next_sameUnit h with ⟨s1, hs1, hbusy, hkind⟩ | ⟨s1, hs1, hkind⟩
  · have hcons := hs.of_sameUnit hs1
    have hbusy1 : s1.engine = .busy := hs1.engine_eq.trans hbusy
    rcases hkind with ⟨c, hc, rfl⟩ | ⟨r, m, a, rfl, ha⟩
    · exact consistent_raiseFault hcons (by rcases hc with rfl | rfl <;> decide) s.lcmd
    · exact consistent_complete hcons hbusy1 m ha
  · have hcons := hs.of_sameUnit hs1
    rcases hkind with rfl | ⟨hrun, ⟨k, v, rfl⟩ | ⟨v, rest, -, rfl⟩⟩
    · exact hcons
    · exact consistent_writeOpnd hcons k v
    · exact consistent_commandWrite hcons (hs1.status_eq ▸ hrun) v

/-- Settles O51: only the engine step writes ROOT and REM, and what it writes is a root and its remainder. -/
theorem stepKeepsResultsFit : Obligations.StepKeepsResultsFit := by
  intro s t hs h
  rcases step_cases s with ⟨-, h'⟩ | ⟨-, h'⟩ | ⟨-, -, h'⟩ <;> rw [h'] at h
  · exact engineStep_next_resultsFit (s := popTurn s) hs h
  · obtain ⟨hroot, hrem⟩ := hostStep_next_results h
    rw [State.ResultsFit, hroot, hrem]
    exact hs
  · rw [waitStep_next h]
    exact hs

end Sys2Proof.Machine
end

section
/-! SUPPORT. States that agree on every word with a defined value (R39, R57, R281): each operation of the unit and of
the host answers alike in both, and keeps the agreement. -/

namespace Sys2Proof.Machine

open Sys2Proof.Claims

/-! #### Registers that agree on their written words -/

theorem agreeOn_refl (written : WordFlags) (a : Reg128) : agreeOn written a a := fun _ _ => rfl

theorem agreeOn.readFlagged_eq {written : WordFlags} {a b : Reg128} (h : agreeOn written a b) (k : Fin 4) :
    readFlagged a written k = readFlagged b written k := by
  unfold readFlagged
  split
  · next hk => rw [h k hk]
  · rfl

/-- Registers that agree still do when the same word is written in both. -/
theorem agreeOn.setWord {written : WordFlags} {a b : Reg128} (h : agreeOn written a b) (k : Fin 4) (v : Word32) :
    agreeOn (written.set k.val true k.isLt) (setWord a k v) (setWord b k v) := by
  intro j hj
  by_cases hjk : j = k
  · rw [hjk, getWord_setWord_same, getWord_setWord_same]
  · rw [getWord_setWord_ne _ _ hjk, getWord_setWord_ne _ _ hjk]
    exact h j (get_set_ne written hjk ▸ hj)

/-- An operand whose words were all written is the same in registers that agree (R87, R95). -/
theorem agreeOn.operand_eq {written : WordFlags} {a b : Reg128} (h : agreeOn written a b) {w : Nat} (hpos : 0 < w)
    (hw : w ≤ 128) (hwritten : operandWritten w written = true) : operand w a = operand w b := by
  apply BitVec.eq_of_getLsbD_eq
  intro i hi
  have hflag := (operandWritten_iff w written hpos).1 hwritten ⟨i / 32, by omega⟩ (by dsimp only; omega)
  simp only [operand, BitVec.getLsbD_extractLsb', hi, decide_true, Bool.true_and, Nat.zero_add]
  rw [getLsbD_of_getWord a i (by omega), getLsbD_of_getWord b i (by omega), h _ hflag]

/-! #### Operations on two such states -/

section SameDefined
variable {s t : State} (h : s.SameDefined t)
include h

/-- A read returns the same word, or none, in both (R55, R57). -/
theorem State.SameDefined.memRead_eq (off : Nat) : memRead off s = memRead off t := by
  unfold memRead
  cases windowReg off with
  | opnd k => exact (h.opnd.readFlagged_eq k).trans (by rw [h.opndWritten])
  | root k => exact (h.root.readFlagged_eq k).trans (by rw [h.rootWritten])
  | rem k => exact (h.rem.readFlagged_eq k).trans (by rw [h.remWritten])
  | cmd => rfl
  | status => exact congrArg (fun st : Status => some st.word) h.status
  | fcmd => exact congrArg some h.fcmd
  | reserved => rfl

theorem sameDefined_popTurn : (popTurn s).SameDefined (popTurn t) :=
  { h with turns := congrArg List.tail h.turns }

theorem State.SameDefined.withHostOps (ops : List HostOp) :
    State.SameDefined { s with hostOps := ops } { t with hostOps := ops } :=
  { h with hostOps := rfl }

theorem sameDefined_raiseFault (c : Cause) (w : Word32) : (raiseFault c w s).SameDefined (raiseFault c w t) :=
  { h with status := rfl, fcmd := rfl, engine := rfl, latch := nofun }

/-- What a completed command writes has a value (R39, R96). -/
theorem sameDefined_complete (r : Nat) (m : Option Nat) (absent : Bool) :
    (complete r m absent s).SameDefined (complete r m absent t) := by
  have hstatus : s.status.complete absent = t.status.complete absent := by rw [h.status]
  cases m with
  | none =>
    exact { h with
      rootWritten := rfl, root := agreeOn_refl _ _, status := hstatus, engine := rfl, latch := nofun }
  | some m =>
    exact { h with
      rootWritten := rfl, remWritten := rfl, root := agreeOn_refl _ _, rem := agreeOn_refl _ _, status := hstatus,
      engine := rfl, latch := nofun }

/-- The latch of a command in flight has the defined words that OPND had (R93). -/
theorem sameDefined_latchCommand (v : Word32) : (latchCommand v s).SameDefined (latchCommand v t) :=
  { h with
    status := congrArg Status.accept h.status, engine := rfl, latch := fun _ => ⟨rfl, h.opndWritten, h.opnd⟩ }

theorem sameDefined_commandWrite (v : Word32) : (commandWrite v s).SameDefined (commandWrite v t) := by
  unfold commandWrite
  rw [h.engine]
  split
  · exact sameDefined_raiseFault h .protocol v
  · exact sameDefined_latchCommand h v

theorem sameDefined_writeOpnd (k : Fin 4) (v : Word32) : (writeOpnd k v s).SameDefined (writeOpnd k v t) :=
  { h with
    opndWritten := congrArg (fun f : WordFlags => f.set k.val true k.isLt) h.opndWritten
    opnd := h.opnd.setWord k v }

theorem sameDefined_memWrite (off : Nat) (v : Word32) : (memWrite off v s).SameDefined (memWrite off v t) := by
  unfold memWrite
  rw [h.status]
  split
  · exact h
  · cases windowReg off with
    | opnd k => exact sameDefined_writeOpnd h k v
    | cmd => exact sameDefined_commandWrite h v
    | root k | rem k | status | fcmd | reserved => exact h

theorem sameDefined_settle (hlcmd : s.lcmd = t.lcmd) (o : CmdOutcome) : (settle o s).SameDefined (settle o t) := by
  cases o with
  | root r => exact sameDefined_complete h r none false
  | rootRem r m => exact sameDefined_complete h r (some m) false
  | absent => exact sameDefined_complete h 0 none true
  | domainError =>
    simp only [settle, hlcmd]
    exact sameDefined_raiseFault h .domain t.lcmd

/-! #### The agents' steps -/

/-- A command in flight answers alike: its flags are the same and its operand has a value, or it ends the run (R95). -/
theorem sameOutcome_exec (hbusy : s.engine = .busy) (i : Instr) : SameOutcome (exec i s) (exec i t) := by
  obtain ⟨hlcmd, hflags, hlopnd⟩ := h.latch hbusy
  rw [exec_eq_runCommand, exec_eq_runCommand]
  cases hwritten : operandWritten i.shape.width.bits s.lopndWritten with
  | true =>
    rw [runCommand_of_written _ s hwritten, runCommand_of_written _ t (hflags ▸ hwritten),
      hlopnd.operand_eq (bits_pos _) (bits_le _) hwritten]
    exact sameDefined_settle h hlcmd _
  | false =>
    rw [runCommand_of_unwritten _ s hwritten, runCommand_of_unwritten _ t (hflags ▸ hwritten)]
    rfl

theorem sameOutcome_engineStep (hbusy : s.engine = .busy) : SameOutcome (engineStep s) (engineStep t) := by
  unfold engineStep
  rw [(h.latch hbusy).1]
  cases decode t.lcmd with
  | illegal why => exact sameDefined_raiseFault h .illegal t.lcmd
  | ok i => exact sameOutcome_exec h hbusy i

theorem sameOutcome_deliver (answer : Option Word32) : SameOutcome (deliver answer s) (deliver answer t) := by
  cases answer with
  | none => rfl
  | some v => exact { h with hostReads := congrArg (· ++ [v]) h.hostReads }

theorem sameOutcome_performAccess (a : HostAccess) : SameOutcome (performAccess a s) (performAccess a t) := by
  cases a with
  | read off size =>
    simp only [performAccess, h.memRead_eq]
    exact sameOutcome_deliver h _
  | write off size v => exact sameDefined_memWrite h off.toNat v

theorem sameOutcome_pollWord (op : HostOp) (off : Nat) (mask want : Word32) (rest : List HostOp) :
    SameOutcome (pollWord op off mask want rest s) (pollWord op off mask want rest t) := by
  simp only [pollWord, h.memRead_eq]
  exact sameOutcome_deliver (h.withHostOps _) _

theorem sameOutcome_hostStep : SameOutcome (hostStep s) (hostStep t) := by
  unfold hostStep
  rw [h.hostOps]
  split
  · exact h
  · next a rest _ =>
    split
    · exact sameOutcome_performAccess (h.withHostOps rest) a
    · rfl
  · exact sameOutcome_pollWord h _ _ _ _ _
  · exact sameOutcome_pollWord h _ _ _ _ _

theorem sameOutcome_waitStep : SameOutcome (waitStep s) (waitStep t) := by
  unfold waitStep
  rw [h.hostOps]
  split
  · exact h
  · rfl

/-- Who moves is decided by fields that are always defined (R20). -/
theorem State.SameDefined.nextAgent_eq : nextAgent s = nextAgent t := by
  have hengine : engineReady s = engineReady t := by rw [engineReady, engineReady, h.engine]
  have hhost : hostReady s = hostReady t := by unfold hostReady; rw [h.hostOps]
  have hturn : scheduled s = scheduled t := by rw [scheduled, scheduled, h.turns]
  rw [nextAgent, nextAgent, hengine, hhost, hturn]

end SameDefined

/-- The engine is the one that moves only while a command is in flight (R95). -/
theorem busy_of_nextAgent_engine {s : State} (h : nextAgent s = some .engine) : s.engine = .busy :=
  by_contra fun hidle => nextAgent_ne_engine hidle h

end Sys2Proof.Machine
end

section
/-! SETTLED. The contents the spec leaves unspecified (10_state.md R39, 20_memory.md R57, 70_reset_and_hazards.md
R281). -/

namespace Sys2Proof.Machine

/-- Settles O58: the same agent moves in both states, and its step answers alike. -/
theorem unwrittenContentsInvisible : Obligations.UnwrittenContentsInvisible := by
  intro s t h
  have hpop : (popTurn s).SameDefined (popTurn t) := sameDefined_popTurn h
  unfold step
  rw [← h.nextAgent_eq]
  cases hagent : nextAgent s with
  | none => exact sameOutcome_waitStep h
  | some agent =>
    cases agent with
    | engine =>
      have hbusy : s.engine = .busy := busy_of_nextAgent_engine hagent
      exact sameOutcome_engineStep hpop hbusy
    | host => exact sameOutcome_hostStep hpop

end Sys2Proof.Machine
end

section
/-! SETTLED. The words and mnemonics of the commands, of 30_encoding.md. -/

namespace Sys2Proof.Machine

/-- Settles O1: each word is decoded as written out. -/
theorem knownWordsDecode : Obligations.KnownWordsDecode := by
  unfold Obligations.KnownWordsDecode
  decide

/-- Settles O2: the word of a command has the command's fields. -/
theorem decodeAfterEncode : Obligations.DecodeAfterEncode := fun _ _ => decode_eq_ok_iff.2 rfl

/-- Settles O3: the fields of a word that decodes are its command's, and the four fields are the whole word. -/
theorem encodeAfterDecode : Obligations.EncodeAfterDecode := fun _ _ => decode_eq_ok_iff.1

/-- Settles O5: the opcode map lists every command, and each of its 50 rows is looked up. -/
theorem mnemonicsAssemble : Obligations.MnemonicsAssemble := by
  have hrows : ∀ i ∈ allInstrs, instrOfMnemonic i.mnemonic.toList = some i ∧
      instrOfMnemonic (i.mnemonic.toList.map Char.toLower) = some i := by
    decide +kernel
  exact fun i => hrows i (mem_allInstrs i)

end Sys2Proof.Machine
end

section
/-! SUPPORT. What a command and the engine step answer, by the written-flags: the settled outcome when the operand
words it reads were written, and the model fault otherwise (R95). -/

namespace Sys2Proof.Machine

open Sys2Proof.Claims

theorem operandWritten_iff_wordsWritten (w : Width) (f : WordFlags) :
    operandWritten w.bits f = true ↔ WordsWritten w.bits f :=
  operandWritten_iff _ f (bits_pos w)

theorem exec_of_wordsWritten {i : Instr} {s : State} (h : WordsWritten i.shape.width.bits s.lopndWritten) :
    exec i s = .next (settle (rootOutcome i.shape.op (operand i.shape.width.bits s.lopnd)) s) := by
  rw [exec_eq_rootOutcome, runCommand_of_written _ s ((operandWritten_iff_wordsWritten _ _).2 h)]

theorem exec_of_not_wordsWritten {i : Instr} {s : State} (h : ¬WordsWritten i.shape.width.bits s.lopndWritten) :
    exec i s = .fault .unwrittenOperand := by
  rw [← operandWritten_iff_wordsWritten, Bool.not_eq_true] at h
  rw [exec_eq_runCommand, runCommand_of_unwritten _ s h]

theorem engineStep_of_illegal {s : State} {why : DecodeError} (h : decode s.lcmd = .illegal why) :
    engineStep s = .next (faulted .illegal s.lcmd s) := by
  rw [engineStep, h]
  rfl

theorem engineStep_of_legal {s : State} {i : Instr} (h : decode s.lcmd = .ok i) : engineStep s = exec i s := by
  rw [engineStep, h]

/-- A written command that is no ISQRT.I of a negative operand completes. -/
theorem exec_completes {i : Instr} {s : State} (hwords : WordsWritten i.shape.width.bits s.lopndWritten)
    (hsign : ¬(i.shape.op = .isqrtI ∧ Negative i.shape.width.bits s)) :
    ∃ r m absent, exec i s = .next (complete r m absent s) := by
  rw [← msb_operand_iff] at hsign
  obtain ⟨r, m, absent, hcomplete, -⟩ := settle_performShape_completes s hsign
  refine ⟨r, m, absent, ?_⟩
  rw [exec_of_wordsWritten hwords, ← performShape_eq_rootOutcome, hcomplete]

/-- `Complete` of a root alone, as one update (R96). -/
theorem complete_eq_completedRoot (r : Nat) (s : State) : complete r none false s = completedRoot r s := rfl

/-- A command whose outcome is that of ISQRT.U completes with the root of its operand (R9, R10, R97). -/
theorem exec_completes_of_rootOutcome {i : Instr} {s : State} (hwords : WordsWritten i.shape.width.bits s.lopndWritten)
    (ho : rootOutcome i.shape.op (operand i.shape.width.bits s.lopnd) =
      rootOutcome .isqrtU (operand i.shape.width.bits s.lopnd)) :
    ∃ r, IsRoot (operandOf i.shape.width.bits s) r ∧ r < 2 ^ (i.shape.width.bits / 2) ∧
      exec i s = .next (completedRoot r s) := by
  refine ⟨_, isRoot_sqrt _, sqrt_lt_two_pow (bits_even _) (operandOf_lt _ s), ?_⟩
  rw [exec_of_wordsWritten hwords, ho, rootOutcome, toNat_operand, settle, complete_eq_completedRoot]

/-- An ISQRT.U completes with the root of its operand, on every engine. -/
theorem exec_unsigned_completes {i : Instr} {w : Nat} {s : State}
    (hshape : i.shape.op = .isqrtU ∧ i.shape.width.bits = w) (hwords : WordsWritten w s.lopndWritten) :
    ∃ r, IsRoot (operandOf w s) r ∧ r < 2 ^ (w / 2) ∧ exec i s = .next (completedRoot r s) := by
  obtain ⟨hop, rfl⟩ := hshape
  exact exec_completes_of_rootOutcome hwords (by rw [hop])

/-- The unsigned commands and their widths, as rows of the opcode map. -/
theorem shape_of_mem_unsignedCommands {p : Instr × Nat} (hp : p ∈ binCommands ++ fpCommands ++ karCommands) :
    p.1.shape.op = .isqrtU ∧ p.1.shape.width.bits = p.2 := by
  revert p; decide

/-- The with-remainder commands and their widths, as rows of the opcode map. -/
theorem shape_of_mem_remCommands {p : Instr × Nat} (hp : p ∈ remCommands) :
    p.1.shape.op = .isqrtremU ∧ p.1.shape.width.bits = p.2 := by
  revert p; decide

/-- The signed commands and their widths, as rows of the opcode map. -/
theorem shape_of_mem_signedCommands {p : Instr × Nat} (hp : p ∈ checkedCommands ++ fatalCommands) :
    (p.1.shape.op = .chksqrtI ∨ p.1.shape.op = .isqrtI) ∧ p.1.shape.width.bits = p.2 :=
  (List.mem_append.1 hp).elim (fun hc => (shape_of_mem_checkedCommands hc).imp_left .inl)
    (fun hf => (shape_of_mem_fatalCommands hf).imp_left .inr)

end Sys2Proof.Machine
end

section
/-! SETTLED. The commands that complete, and the two ways they do not (41_binary.md, 42_fp.md, 43_karatsuba.md,
44_signed.md, 30_encoding.md R95). -/

namespace Sys2Proof.Machine

open Sys2Proof.Claims

/-- Settles O18: the five commands are ISQRT.U. -/
theorem binCommandsComplete : Obligations.BinCommandsComplete := fun _ hp _ =>
  exec_unsigned_completes (shape_of_mem_unsignedCommands (List.mem_append_left _ (List.mem_append_left _ hp)))

/-- Settles O19: the five commands are ISQRT.U. -/
theorem fpCommandsComplete : Obligations.FpCommandsComplete := fun _ hp _ =>
  exec_unsigned_completes (shape_of_mem_unsignedCommands (List.mem_append_left _ (List.mem_append_right _ hp)))

/-- Settles O20: the five commands are ISQRT.U. -/
theorem karCommandsComplete : Obligations.KarCommandsComplete := fun _ hp _ =>
  exec_unsigned_completes (shape_of_mem_unsignedCommands (List.mem_append_right _ hp))

/-- Settles O21: the outcome is the root and remainder of the operand, and completing it writes both. -/
theorem remCommandsComplete : Obligations.RemCommandsComplete := by
  intro p hp s hwords
  obtain ⟨hop, hbits⟩ := shape_of_mem_remCommands hp
  rw [← hbits] at hwords ⊢
  refine ⟨_, isRoot_sqrt _, sqrt_lt_two_pow (bits_even _) (operandOf_lt _ s), ?_⟩
  rw [exec_of_wordsWritten hwords, hop, rootOutcome, toNat_operand]
  rfl

/-- Settles O22: both signed operations delegate a non-negative operand to the engine. -/
theorem signedNonNegativeCompletes : Obligations.SignedNonNegativeCompletes := by
  intro p hp s hwords hnonneg
  obtain ⟨hop, hbits⟩ := shape_of_mem_signedCommands hp
  rw [← hbits] at hwords hnonneg ⊢
  exact exec_completes_of_rootOutcome hwords (rootOutcome_signed_of_nonneg hop hnonneg)

/-- Settles O24: a negative operand makes the outcome the domain error, and settling it is the fault. -/
theorem fatalNegativeFaultsDomain : Obligations.FatalNegativeFaultsDomain := by
  intro p hp s hwords hneg
  obtain ⟨hop, hbits⟩ := shape_of_mem_fatalCommands hp
  rw [← hbits] at hwords hneg
  rw [exec_of_wordsWritten hwords, hop, rootOutcome_fatal_of_negative hneg, settle, raiseFault_eq_faulted]

/-- Settles O26: the word is one that the command reads. -/
theorem unwrittenOperandStops : Obligations.UnwrittenOperandStops := by
  intro i s k hk hflag
  refine exec_of_not_wordsWritten fun hwords => ?_
  simp [hwords k hk] at hflag

end Sys2Proof.Machine
end

section
/-! SUPPORT. What a command reads and leaves: the latched bits above its width, and the frame of its two ends (R87, R96,
R256), in the window too (R51, R52). -/

namespace Sys2Proof.Machine

open Sys2Proof.Claims

/-- An operand is decided by the latched bits below its width (R87). -/
theorem operand_congr {w : Nat} {a b : Reg128} (h : ∀ k < w, a.getLsbD k = b.getLsbD k) :
    operand w a = operand w b := by
  apply BitVec.eq_of_getLsbD_eq
  intro k hk
  simp [operand, hk, h k hk]

/-- No outcome of a command reads or writes the latched operand (R35, R96). -/
theorem settle_withLopnd (o : CmdOutcome) (a : Reg128) (s : State) :
    settle o { s with lopnd := a } = { settle o s with lopnd := a } := by
  cases o with
  | root r => rfl
  | rootRem r m => rfl
  | absent => rfl
  | domainError => rfl

/-- The two ends of a command that answers a next state; only an ISQRTREM writes REM (R95, R97). -/
theorem exec_next_ends {i : Instr} {s t : State} (h : exec i s = .next t) :
    t = raiseFault .domain s.lcmd s ∨
      ∃ r m absent, t = complete r m absent s ∧ (i.shape.op ≠ .isqrtremU → m = none) := by
  obtain ⟨-, rfl⟩ := exec_next_cases h
  by_cases hdomain : i.shape.op = .isqrtI ∧ (operand i.shape.width.bits s.lopnd).msb = true
  · rw [performShape_domain hdomain.1 hdomain.2]
    exact .inl rfl
  · exact .inr (settle_performShape_completes s hdomain)

theorem windowReg_of_lt_root {off : Nat} (h : off < 0x10) : windowReg off = .opnd (wordIndex off) := if_pos h

theorem windowReg_of_mem_rem {off : Nat} (hlo : 0x20 ≤ off) (hhi : off < 0x30) :
    windowReg off = .rem (wordIndex off) := by
  rw [windowReg, if_neg (by omega), if_neg (by omega), if_pos hhi]

/-- States with the same OPND have the same bytes at OPND, CMD and the reserved offsets, and at REM's if REM is the
same. -/
theorem windowByte_frame {s t : State} (hopnd : t.opnd = s.opnd) (hwritten : t.opndWritten = s.opndWritten)
    {keepsRem : Prop} (hrem : keepsRem → t.rem = s.rem ∧ t.remWritten = s.remWritten) {off : Nat}
    (hoff : off < 0x10 ∨ (0x30 ≤ off ∧ off < 0x34) ∨ 0x3C ≤ off ∨ (0x20 ≤ off ∧ off < 0x30 ∧ keepsRem)) :
    windowByte off t = windowByte off s := by
  refine congrArg (Option.map fun v => byteOf v off) ?_
  rcases hoff with h | h | h | ⟨hlo, hhi, h⟩
  · simp only [memRead, windowReg_of_lt_root (show 4 * (off / 4) < 0x10 by omega), hopnd, hwritten]
  · rw [show 4 * (off / 4) = 0x30 by omega]
    rfl
  · rw [memRead_reserved (by omega), memRead_reserved (by omega)]
  · obtain ⟨hval, hflags⟩ := hrem h
    simp only [memRead, windowReg_of_mem_rem (show 0x20 ≤ 4 * (off / 4) by omega) (by omega), hval, hflags]

end Sys2Proof.Machine
end

section
/-! SETTLED. What commands ignore and leave unchanged, and the order of the engine step's checks (30_encoding.md R87,
R95, 60_exceptions.md R254, R255). -/

namespace Sys2Proof.Machine

open Sys2Proof.Claims

/-- Settles O30: the written-flags and the operand of the command are the same, and no outcome touches the latch. -/
theorem upperOperandBitsIgnored : Obligations.UpperOperandBitsIgnored := by
  intro i s a hlow
  by_cases hwords : WordsWritten i.shape.width.bits s.lopndWritten
  · rw [exec_of_wordsWritten hwords, exec_of_wordsWritten (s := { s with lopnd := a }) hwords,
      operand_congr hlow, settle_withLopnd _ a s]
    exact ⟨fun _ h => Host.Outcome.next.inj h ▸ rfl, nofun⟩
  · rw [exec_of_not_wordsWritten hwords, exec_of_not_wordsWritten (s := { s with lopnd := a }) hwords]
    exact ⟨nofun, fun _ h => h⟩

/-- Settles O33: the frame of the DOMAIN fault and of completion, by the update each is. -/
theorem commandFrame : Obligations.CommandFrame := by
  intro i s t h
  rcases exec_next_ends h with rfl | ⟨r, m, absent, rfl, hm⟩
  · exact ⟨⟨rfl, rfl, rfl, rfl, rfl, rfl, rfl, rfl⟩, fun _ => ⟨rfl, rfl⟩, nofun, fun _ => ⟨rfl, rfl, rfl, rfl⟩,
      fun off => windowByte_frame (s := s) (t := raiseFault .domain s.lcmd s) rfl rfl fun _ => ⟨rfl, rfl⟩⟩
  · have hrem : i.shape.op ≠ .isqrtremU → (complete r m absent s).rem = s.rem ∧
        (complete r m absent s).remWritten = s.remWritten := fun hop => by
      rw [hm hop]
      exact ⟨rfl, rfl⟩
    exact ⟨by simp, hrem, by simp, by simp,
      fun off => windowByte_frame (complete_opnd r m absent s) (complete_opndWritten r m absent s) hrem⟩

/-- Settles O36: decoding comes first, then the written-flags, then the sign. -/
theorem engineStepPriority : Obligations.EngineStepPriority := by
  intro s
  refine ⟨fun _ h => engineStep_of_illegal h, fun i hi => ?_⟩
  rw [engineStep_of_legal hi]
  refine ⟨exec_of_not_wordsWritten, fun hwords hop hneg => ?_, fun hwords hsign => ?_⟩
  · rw [exec_of_wordsWritten hwords, hop, rootOutcome_fatal_of_negative hneg, settle, raiseFault_eq_faulted]
  · obtain ⟨r, m, absent, h⟩ := exec_completes hwords hsign
    exact ⟨_, h, complete_engine r m absent s, rfl⟩

end Sys2Proof.Machine
end

section
/-! SUPPORT. Who moves in a step, and the step that follows: the engine, a host that waits, or a host that is stuck
(10_state.md R20, R36, 20_memory.md R54, 30_encoding.md R91, R95). -/

namespace Sys2Proof.Machine

open Sys2Proof.Claims

/-! #### The engine's turn -/

/-- Where the engine moves, the step is the engine's, with one turn used (R20). -/
theorem step_of_engineMoves {s : State} (hmoves : EngineMoves s) :
    step s = engineStep { s with turns := s.turns.tail } := by
  obtain ⟨hbusy, hschedule⟩ := hmoves
  have hagent : nextAgent s = some .engine := by
    rw [nextAgent, if_pos ((engineReady_iff s).2 hbusy)]
    split
    · next hready =>
      rcases hschedule with hops | hturns | ⟨rest, hturns⟩
      · simp [hostReady, hops] at hready
      · rw [scheduled, hturns]; rfl
      · rw [scheduled, hturns]; rfl
    · rfl
  rw [step, hagent, popTurn]

/-- A placed command is the engine's to run at once (log entry 11). -/
theorem engineMoves_withFetchWord (s : State) (nbits w : Nat) : EngineMoves (s.withFetchWord nbits w) := by
  refine ⟨latchCommand_engine _ _, ?_⟩
  by_cases hops : s.hostOps = []
  · exact .inl hops
  · exact .inr (.inr ⟨s.turns, if_neg hops⟩)

/-- A table word is decoded as the command word it stands for (R88). -/
theorem decode_tableWord {nbits w : Nat} {i : Instr} (h : decodeTableWord nbits w = some i) :
    decode (tableWord nbits w) = .ok i := by
  rw [decodeTableWord, decodeBytes_bytesOfWord] at h
  cases hd : decode (tableWord nbits w) with
  | ok j =>
    rw [hd] at h
    exact congrArg _ (Option.some.inj h)
  | illegal why =>
    rw [hd] at h
    cases h

/-- The engine step of a word that is illegal, or whose operand was written, ends the command in flight (R95). -/
theorem engineStep_ends {s : State}
    (hwords : ∀ i, decode s.lcmd = .ok i → WordsWritten i.shape.width.bits s.lopndWritten) :
    ∃ t, engineStep s = .next t ∧ t.engine ≠ .busy ∧ t.status.busy = false ∧
      (t.status.done = true ∨ t.status.halted = true) ∧ t.hostOps = s.hostOps := by
  cases hd : decode s.lcmd with
  | illegal why => exact ⟨_, engineStep_of_illegal hd, nofun, rfl, .inr rfl, rfl⟩
  | ok i =>
    refine ⟨_, (engineStep_of_legal hd).trans (exec_of_wordsWritten (hwords i hd)), ?_⟩
    rcases settle_cases (rootOutcome i.shape.op (operand i.shape.width.bits s.lopnd)) s with
      ⟨r, m, absent, h⟩ | h <;> rw [h]
    · exact ⟨nofun, rfl, .inl rfl, complete_hostOps r m absent s⟩
    · exact ⟨nofun, rfl, .inr rfl, rfl⟩

/-! #### The host's turn -/

/-- BUSY is bit 0 of the STATUS word (R27): the condition of the wait loop (R91). -/
theorem word_and_one_eq_zero_iff (t : Status) : t.word &&& 1#32 = 0#32 ↔ t.busy = false := by
  obtain ⟨busy, done, absent, halted, cause⟩ := t
  cases cause <;> revert busy done absent halted <;> decide

/-- Where the host may move, one round of its wait is the whole step (R91). -/
theorem step_wait {s : State} {rest : List HostOp} (hmoves : HostMoves s) (hops : s.hostOps = .wait :: rest) :
    step s = .next { s with
      hostOps := if s.status.busy = false then rest else s.hostOps, turns := s.turns.tail,
      hostReads := s.hostReads ++ [s.status.word] } := by
  have hready : hostReady s = true := by rw [hostReady, hops]; rfl
  have hread : memRead 0x34 (popTurn s) = some s.status.word := rfl
  rw [step_of_hostMoves hmoves hready, hostStep, popTurn_hostOps, hops]
  dsimp only
  rw [pollWord_of_memRead hread]
  simp only [word_and_one_eq_zero_iff]
  rfl

/-- A poll loop of a word without a defined value ends the run, as any read of it does (R57). -/
theorem step_poll_undefined {s : State} {off : Int} {mask want : Word32} {rest : List HostOp} (hmoves : HostMoves s)
    (hops : s.hostOps = .poll off mask want :: rest) (hwf : (HostOp.poll off mask want).wf = true)
    (hnone : memRead off.toNat s = none) : step s = .fault .unwrittenRead := by
  have hready : hostReady s = true := by rw [hostReady, hops]; exact hwf
  rw [step_of_hostMoves hmoves hready, hostStep, popTurn_hostOps, hops]
  show deliver (memRead off.toNat s) _ = _
  rw [hnone, deliver]

/-- A wait on a unit that is not BUSY is over in one step. -/
theorem step_wait_over {s : State} {rest : List HostOp} (hidle : s.engine ≠ .busy) (hbusy : s.status.busy = false)
    (hops : s.hostOps = .wait :: rest) :
    ∃ t, step s = .next t ∧ t.hostOps = rest ∧ t.status = s.status :=
  ⟨_, step_wait (.inl hidle) hops, if_pos hbusy, rfl⟩

/-- An access of another size, misaligned, or not whole in the window is not admitted (R54). -/
theorem not_admitted {a : HostAccess} (h : a.size ≠ 4 ∨ a.offset % 4 ≠ 0 ∨ a.offset < 0 ∨ 256 < a.offset + a.size) :
    a.admitted = false := by
  rw [← Bool.not_eq_true, HostAccess.admitted_iff]
  omega

/-- A word access at an aligned offset of the window is admitted (R54). -/
theorem admitted_of_mod_four {a : HostAccess} {off : Nat} (hoffset : a.offset = off) (hsize : a.size = 4)
    (halign : off % 4 = 0) (hend : off + 4 ≤ 256) : a.admitted = true := by
  rw [HostAccess.admitted_iff, hoffset]
  omega

/-- A host that is stuck leaves the step to the engine, and without a command in flight there is none (R54; log entry
7). -/
theorem step_of_stuck {s : State} {op : HostOp} {rest : List HostOp} (hops : s.hostOps = op :: rest)
    (hwf : op.wf = false) :
    (s.engine = .busy → step s = engineStep { s with turns := s.turns.tail }) ∧
      (s.engine ≠ .busy → step s = .fault .inadmissibleAccess) := by
  have hready : hostReady s = false := by rw [hostReady, hops]; exact hwf
  rcases step_cases s with ⟨hbusy, h⟩ | ⟨hhost, -⟩ | ⟨hidle, -, h⟩
  · exact ⟨fun _ => h, fun hidle => absurd hbusy hidle⟩
  · simp [hready] at hhost
  · exact ⟨fun hbusy => absurd hbusy hidle, fun _ => h.trans (if_neg (by simp [hops]))⟩

/-! #### The engine state -/

/-- The engine state stays, or the engine ends its command, or the host writes CMD (R36). -/
theorem step_next_engine_cases {s t : State} (hs : s.Consistent) (h : step s = .next t) :
    t.engine = s.engine ∨
      (s.engine = .busy ∧ ((t.engine = .idle ∧ t.status.done = true) ∨
        (t.engine = .halted ∧ (t.status.cause = .illegal ∨ t.status.cause = .domain)))) ∨
      ((∃ v rest, s.hostOps = .access (.write 0x30 4 v) :: rest) ∧
        ((s.engine = .idle ∧ t.engine = .busy) ∨
          (s.engine = .busy ∧ t.engine = .halted ∧ t.status.cause = .protocol))) := by
  rcases step_next_sameUnit h with ⟨s1, -, hbusy, ⟨c, hc, rfl⟩ | ⟨r, m, a, rfl, -⟩⟩ |
    ⟨s1, hs1, rfl | ⟨hrun, ⟨k, v, rfl⟩ | ⟨v, rest, hops, rfl⟩⟩⟩
  · exact .inr (.inl ⟨hbusy, .inr ⟨rfl, hc⟩⟩)
  · exact .inr (.inl ⟨hbusy, .inl ⟨rfl, rfl⟩⟩)
  · exact .inl hs1.engine_eq
  · exact .inl hs1.engine_eq
  · refine .inr (.inr ⟨⟨v, rest, hops⟩, ?_⟩)
    have hengine := hs1.engine_eq
    rcases commandWrite_cases v s1 with ⟨hbusy, h'⟩ | ⟨hidle, h'⟩ <;> rw [h']
    · exact .inr ⟨hengine ▸ hbusy, rfl, rfl⟩
    · exact .inl ⟨hs.idle_of_not_halted hrun (hengine ▸ hidle), rfl⟩

end Sys2Proof.Machine
end

section
/-! SETTLED. Reset and the STATUS word (10_state.md section 4, 70_reset_and_hazards.md R280, R283). -/

namespace Sys2Proof.Machine

/-- Settles O39: the word by its five fields. -/
theorem statusWordLayout : Obligations.StatusWordLayout := by
  rintro ⟨busy, done, absent, halted, cause⟩
  cases cause <;> revert busy done absent halted <;> decide

/-- Settles O48: a reset writes every field of the unit from `State.reset`, and leaves the host's. -/
theorem resetLeaves : Obligations.ResetLeaves := by
  have hword : State.reset.status.word = 0#32 := by decide
  exact ⟨fun _ => ⟨rfl, hword, rfl, rfl, rfl, rfl, rfl⟩, rfl, hword, rfl, rfl, rfl, rfl, rfl, rfl, rfl⟩

/-- Settles O49: no promise is about more than the fields that reset names. -/
theorem consistentAtReset : Obligations.ConsistentAtReset :=
  ⟨⟨by decide, by decide, by decide, by decide, by decide, by decide, .inr rfl, .inr rfl, by decide, by decide⟩,
    by decide, by decide⟩

end Sys2Proof.Machine
end

section
/-! SETTLED. The whole machine: who moves, the host's accesses and its loops, and the engine state (10_state.md R20,
R36, 20_memory.md R54, R59, R61, 30_encoding.md R91, R95, 70_reset_and_hazards.md R284, R289). -/

namespace Sys2Proof.Machine

open Sys2Proof.Claims

/-- Settles O34: the engine's step is the meaning of the word it has latched. -/
theorem stepRunsDecodedCommand : Obligations.StepRunsDecodedCommand := by
  refine ⟨fun s i hmoves hi => ?_, fun s nbits w i hi => ?_⟩
  · rw [step_of_engineMoves hmoves]
    exact engineStep_of_legal hi
  · rw [step_of_engineMoves (engineMoves_withFetchWord s nbits w)]
    exact engineStep_of_legal (decode_tableWord hi)

/-- Settles O54: the schedule names the host or the engine. -/
theorem bothOrdersPossible : Obligations.BothOrdersPossible := by
  intro s op rest ts hbusy hops hwf
  have hready : hostReady s = true := by rw [hostReady, hops]; exact hwf
  exact ⟨step_of_hostMoves (s := { s with turns := .host :: ts }) (.inr ⟨ts, rfl⟩) hready,
    step_of_engineMoves (s := { s with turns := .engine :: ts }) ⟨hbusy, .inr (.inr ⟨ts, rfl⟩)⟩⟩

/-- Settles O44: the step is the access on the state with its operation and one turn used. -/
theorem hostAccessIsOneStep : Obligations.HostAccessIsOneStep := by
  intro s off v rest hmoves halign hend
  refine ⟨fun hops => ?_, fun hops hread => ?_⟩
  · exact step_access hmoves hops (admitted_of_mod_four rfl rfl halign hend)
  · rw [step_access hmoves hops (admitted_of_mod_four rfl rfl halign hend)]
    show deliver (memRead off s) _ = _
    rw [hread, deliver]
    rfl

/-- Settles O46: an operation whose access is not admitted leaves the host stuck; a reserved offset is in the window. -/
theorem inadmissibleAccessIsStuck : Obligations.InadmissibleAccessIsStuck := by
  refine ⟨fun s op a rest hops hop hbad => step_of_stuck hops ?_, fun s off v hlo hhi halign => ⟨?_, ?_, ?_, ?_⟩⟩
  · have hadm := not_admitted hbad
    rcases hop with rfl | ⟨off, mask, want, rfl, rfl⟩ <;> exact hadm
  · exact admitted_of_mod_four rfl rfl halign (by omega)
  · exact admitted_of_mod_four rfl rfl halign (by omega)
  · exact memRead_reserved hlo s
  · exact memWrite_readOnly v s (by omega) (by omega)

/-- Settles O60: the wait reads STATUS, whose bit 0 is BUSY; a poll loop reads its own word. -/
theorem waitPollsOnce : Obligations.WaitPollsOnce := by
  refine ⟨fun s rest hmoves hops => ?_, fun s rest off mask want hmoves halign hend hops => ?_⟩
  · rw [step_wait hmoves hops]
    exact ⟨fun h => by rw [if_pos h], fun h => by rw [if_neg (by simp [h])]⟩
  · have hwf : (HostOp.poll off mask want).wf = true := admitted_of_mod_four rfl rfl halign hend
    refine ⟨step_poll_undefined hmoves hops hwf, fun v hread => ?_⟩
    rw [step_poll hmoves hops hwf hread]
    exact ⟨fun h => by rw [if_pos h], fun h => by rw [if_neg h]⟩

/-- Settles O52: the engine state stays, or the engine ends its command, or the host writes CMD. -/
theorem engineTransitions : Obligations.EngineTransitions := by
  refine ⟨fun s t hs h => ?_, fun _ => rfl⟩
  rcases step_next_engine_cases hs h with hstay | ⟨hbusy, hend⟩ | ⟨hwrite, ⟨hidle, ht⟩ | ⟨hbusy, ht, hcause⟩⟩
  · rw [hstay]
    exact ⟨.inl, .inl, id⟩
  · refine ⟨fun hi => ?_, fun _ => ?_, fun hh => ?_⟩
    · simp [hbusy] at hi
    · exact hend.elim (fun hdone => .inr (.inl hdone)) (fun hfault => .inr (.inr (.inl hfault)))
    · simp [hbusy] at hh
  · rw [hidle]
    exact ⟨fun _ => .inr ⟨ht, hwrite⟩, nofun, nofun⟩
  · rw [hbusy]
    exact ⟨nofun, fun _ => .inr (.inr (.inr ⟨ht, hcause, hwrite⟩)), nofun⟩

/-- Settles O56: without a command in flight and without a CMD write, a step changes at most OPND and the host's
fields. -/
theorem resultsStayVisible : Obligations.ResultsStayVisible := by
  intro s t hs hidle h hwrite
  rcases step_next_sameUnit h with ⟨_, -, hbusy, -⟩ | ⟨s1, ⟨_, _, _, rfl⟩, rfl | ⟨-, ⟨k, v, rfl⟩ | ⟨v, rest, hops, -⟩⟩⟩
  · simp [hs.busy_iff.2 hbusy] at hidle
  · exact ⟨rfl, rfl, rfl, rfl, rfl⟩
  · exact ⟨rfl, rfl, rfl, rfl, rfl⟩
  · exact absurd hops (hwrite v rest)

/-- A wait on a unit whose engine moves is over after the engine's step and one round of the loop. -/
theorem run_wait_of_engineMoves {s : State} {rest : List HostOp} (hmoves : EngineMoves s)
    (hops : s.hostOps = .wait :: rest)
    (hwords : ∀ i, decode s.lcmd = .ok i → WordsWritten i.shape.width.bits s.lopndWritten) :
    ∃ t, Host.Core.run core 2 s = .next t ∧ t.hostOps = rest ∧ t.status.busy = false ∧
      (t.status.done = true ∨ t.status.halted = true) := by
  obtain ⟨u, hstep, hidle, hbusy, hend, hu⟩ := engineStep_ends (s := { s with turns := s.turns.tail }) hwords
  obtain ⟨t, hover, ht, hstatus⟩ := step_wait_over hidle hbusy (hu.trans hops)
  refine ⟨t, ?_, ht, hstatus ▸ hbusy, hstatus ▸ hend⟩
  rw [run_next ((step_of_engineMoves hmoves).trans hstep), run_next hover]
  rfl

/-- A wait on a BUSY unit ends within the schedule, the engine's step and one round more (R289). -/
theorem run_wait {s : State} {rest : List HostOp} (hengine : s.engine = .busy) (hbusy : s.status.busy = true)
    (hops : s.hostOps = .wait :: rest)
    (hwords : ∀ i, decode s.lcmd = .ok i → WordsWritten i.shape.width.bits s.lopndWritten) :
    ∃ k t, k ≤ s.turns.length + 2 ∧ Host.Core.run core k s = .next t ∧ t.hostOps = rest ∧ t.status.busy = false ∧
      (t.status.done = true ∨ t.status.halted = true) := by
  induction hturns : s.turns generalizing s with
  | nil =>
    obtain ⟨t, hrun, ht⟩ := run_wait_of_engineMoves ⟨hengine, .inr (.inl hturns)⟩ hops hwords
    exact ⟨2, t, by simp, hrun, ht⟩
  | cons agent ts ih =>
    cases agent with
    | engine =>
      obtain ⟨t, hrun, ht⟩ := run_wait_of_engineMoves ⟨hengine, .inr (.inr ⟨ts, hturns⟩)⟩ hops hwords
      exact ⟨2, t, by simp, hrun, ht⟩
    | host =>
      have hstep := step_wait (.inr ⟨ts, hturns⟩) hops
      rw [if_neg (by simp [hbusy])] at hstep
      obtain ⟨k, t, hk, hrun, ht⟩ :=
        ih (s := { s with turns := s.turns.tail, hostReads := s.hostReads ++ [s.status.word] })
          hengine hbusy hops hwords (congrArg List.tail hturns)
      exact ⟨k + 1, t, by simpa using hk, (run_next hstep).trans hrun, ht⟩

/-- Settles O57: the wait goes round while the schedule names the host, and then the engine ends the command. -/
theorem waitEnds : Obligations.WaitEnds := fun _ _ hs hengine hops hwords =>
  run_wait hengine (hs.busy_iff.2 hengine) hops hwords

end Sys2Proof.Machine
end

section
/-! SETTLED. The sums of the BIN engine's passes (41_binary.md R122). -/

namespace Sys2Proof.Machine

open Sys2Proof.Claims

/-- Before the pass for digit j of a w-bit operand the root found so far has w/2 - 1 - j bits, so four times the sum
`res + one` is at most five quarters of the operands' range (R122). -/
theorem four_mul_bin_sum_le {w n j : Nat} (hw : w % 2 = 0) (hj : j + 1 ≤ w / 2) (hn : n < 2 ^ w) :
    4 * ((4 * Nat.sqrt (n / 4 ^ (j + 1)) + 1) * 4 ^ j) ≤ 5 * 2 ^ (w - 2) := by
  obtain ⟨i, hi⟩ := Nat.exists_eq_add_of_le hj
  have hfour : ∀ k, (4 : Nat) ^ k = 2 ^ (2 * k) := fun k => by rw [Nat.pow_mul]
  have hp : Nat.sqrt (n / 4 ^ (j + 1)) < 2 ^ i := by
    have hlt : n / 4 ^ (j + 1) < 2 ^ (2 * i) := by
      rw [Nat.div_lt_iff_lt_mul (by positivity), hfour, ← pow_add]
      exact hn.trans_eq (congrArg (2 ^ ·) (by omega))
    have h := sqrt_lt_two_pow (w := 2 * i) (by omega) hlt
    rwa [Nat.mul_div_cancel_left i (by decide)] at h
  have hrange : 2 ^ (w - 2) = 2 ^ i * 2 ^ i * 4 ^ j := by
    rw [hfour, ← pow_add, ← pow_add]
    congr 1
    omega
  rw [hrange]
  generalize Nat.sqrt (n / 4 ^ (j + 1)) = p at hp ⊢
  generalize 2 ^ i = x at hp ⊢
  have hquad : 4 * (4 * p + 1) ≤ 5 * (x * x) := by
    match x with
    | 1 => omega
    | z + 2 => linarith [Nat.zero_le (z * z), Nat.zero_le z]
  calc 4 * ((4 * p + 1) * 4 ^ j) = 4 * (4 * p + 1) * 4 ^ j := (Nat.mul_assoc _ _ _).symm
    _ ≤ 5 * (x * x) * 4 ^ j := Nat.mul_le_mul_right _ hquad
    _ = 5 * (x * x * 4 ^ j) := Nat.mul_assoc _ _ _

theorem eight_le_of_mem_widths {w : Nat} (hw : w ∈ widths) : 8 ≤ w := by
  revert w; decide

/-- Settles O8: the sum of a pass made is `(4p + 1) * 4^j` with p the root found so far; the second pass for the largest
operand reaches the bound. -/
theorem binSumNeverWraps : Obligations.BinSumNeverWraps := by
  have hreached : ∀ w ∈ widths, (binLoop 1 (binStart (BitVec.allOnes w))).one ≠ 0#w ∧
      (binLoop 1 (binStart (BitVec.allOnes w))).res.toNat +
        (binLoop 1 (binStart (BitVec.allOnes w))).one.toNat = 5 * 2 ^ (w - 4) := by
    decide +kernel
  refine fun w hmem => ⟨fun n hbig k hone => ?_, 1, hreached w hmem⟩
  have hw := width_even_of_mem hmem
  have h0 : n.toNat ≠ 0 := by omega
  have hpasses := binPassCount_le_half hw h0 n.isLt
  have hat := binAt_binLoop_binStart h0 k
  rw [Ne, hat.one_eq_zero_iff] at hone
  obtain ⟨j, hj⟩ := Nat.exists_eq_succ_of_ne_zero hone
  rw [hj] at hat
  have hbound := four_mul_bin_sum_le (j := j) hw (by omega) n.isLt
  have hquarter : 2 ^ (w - 2) = 4 * 2 ^ (w - 4) := by
    have hwide := eight_le_of_mem_widths hmem
    rw [show w - 2 = 2 + (w - 4) by omega, pow_add]
    rfl
  have hsum : (binLoop k (binStart n)).res.toNat + (binLoop k (binStart n)).one.toNat =
      (4 * Nat.sqrt (n.toNat / 4 ^ (j + 1)) + 1) * 4 ^ j := by
    rw [hat.res_eq, hat.one_eq]
    ring
  omega

end Sys2Proof.Machine
end

section
/-! SETTLED. The FP engine's candidate and its correction (42_fp.md R143, R146), and the Karatsuba step (43_karatsuba.md
R161). -/

namespace Sys2Proof.Machine

open Sys2Proof.Claims

/-- R146: below 2^52 the root has more fraction bits than integer bits, and rounding it does not reach the next
integer. -/
theorem fpCandidate_eq_sqrt {n : Nat} (hn : n < 2 ^ 52) : fpCandidate n = Nat.sqrt n := by
  by_cases h0 : n = 0
  · rw [h0]; decide
  · obtain ⟨-, hnear⟩ := fpCandidate_within_one (hn.trans (by decide))
    have hroot : Nat.sqrt n < 2 ^ 26 := sqrt_lt_two_pow (w := 52) rfl hn
    have hlog : ilog2 n < 52 := ilog2_lt_of_lt h0 hn
    have hconv : F64.ofNat n = ⟨n, 0⟩ := if_pos (hn.trans (by decide))
    have hc : fpCandidate n = (F64.mk n (0 : Nat)).sqrt.trunc := by rw [fpCandidate, hconv]; rfl
    obtain ⟨hle, hlt⟩ := trunc_sqrt_bounds (e := 0) h0 (by rw [pow_zero, mul_one]; omega) rfl hc
    rw [pow_zero, mul_one] at hle hlt
    refine isRoot_iff_eq_sqrt.1 ⟨?_, hlt⟩
    have hfrac : 2 ^ 27 ≤ 2 ^ (52 - ilog2 n / 2) := Nat.pow_le_pow_right (by decide) (by omega)
    generalize fpCandidate n = c at *
    generalize 2 ^ (52 - ilog2 n / 2) = D at *
    have hsmall : c * c * D < (n + 1) * D := by
      rw [Nat.succ_mul]
      omega
    exact Nat.lt_succ_iff.1 (Nat.lt_of_mul_lt_mul_right hsmall)

/-- Settles O12: the candidate of a value within 2^10 of n is within one of its root, and below 2^52 it is the root. -/
theorem fpCandidateWithinOne : Obligations.FpCandidateWithinOne := by
  intro n r hn hr
  obtain rfl := isRoot_iff_eq_sqrt.1 hr
  obtain ⟨hlo, hhi⟩ := fpCandidate_within_one hn
  exact ⟨hlo, hhi, fpCandidate_eq_sqrt⟩

/-- Settles O13: a candidate within one of the root is corrected to the root. -/
theorem fpSmallComputesIsqrt : Obligations.FpSmallComputesIsqrt := by
  intro w hmem n hn
  have hw : w ≤ 64 := (by decide : ∀ w ∈ [8, 16, 32, 64], w ≤ 64) w hmem
  refine ⟨isRoot_iff_eq_sqrt.2 (fpIsqrtSmall_eq_sqrt hw hn), fun r hr => ?_⟩
  obtain rfl := isRoot_iff_eq_sqrt.1 hr
  obtain ⟨hlo, hhi⟩ := fpCandidate_within_one (hn.trans_le (Nat.pow_le_pow_right (by decide) hw))
  exact ⟨by omega, fun c hc => fpCorrect_eq_sqrt hn (by omega) (by omega)⟩

/-- Settles O14: the correction leaves the root and its remainder. -/
theorem karStepPostcondition : Obligations.KarStepPostcondition := by
  intro w hmem halfRem hc m hlo hhi
  obtain ⟨hw, hpos⟩ := step_width_of_mem hmem
  have hstep := isRootRem_karStep hw hpos hc hlo hhi
  refine ⟨isRoot_iff_eq_sqrt.2 hstep.fst, ?_, (isRootRem_iff.1 hstep).2⟩
  rw [hstep.fst]
  exact congrArg Prod.snd hstep

end Sys2Proof.Machine
end

section
/-! SUPPORT. Rounding to a binary64 value as the model reads IEEE 754 (log entry 12): the values with a 53-bit
significand near a number between 2^52 and 2^53 units are whole units, so the value within half a unit of it is the
nearest one; and what the conversion and the square root of R140 round. -/

namespace Sys2Proof.Machine

open Sys2Proof.Claims

/-! #### Values in units of 2^e -/

/-- Renormalising a rounded significand keeps the value. -/
theorem f64Value_ofRounded (m : Nat) (e : Int) : f64Value (F64.ofRounded m e) = m * 2 ^ e := by
  unfold F64.ofRounded
  split
  · next h =>
    rw [h, f64Value, zpow_add_one₀ (by decide)]
    push_cast
    ring
  · rfl

theorem sig_ofRounded_lt {m : Nat} (h : m ≤ 2 ^ 53) (e : Int) : (F64.ofRounded m e).sig < 2 ^ 53 := by
  unfold F64.ofRounded
  split
  · exact Nat.pow_lt_pow_right (by decide) (by decide)
  · next hne => exact lt_of_le_of_ne h hne

theorem sig_ofRounded_even {m : Nat} (h : m % 2 = 0) (e : Int) : (F64.ofRounded m e).sig % 2 = 0 := by
  unfold F64.ofRounded
  split
  · exact (by decide : 2 ^ 52 % 2 = 0)
  · exact h

/-- A value with a 53-bit significand is a whole number of units, or at most half a unit below 2^52 of them. -/
theorem f64Value_whole_or_below {g : F64} (hg : g.sig < 2 ^ 53) (e : Int) :
    (∃ k : Nat, f64Value g = k * 2 ^ e) ∨ f64Value g ≤ (2 ^ 52 - 1 / 2) * 2 ^ e := by
  have hunit : (0 : ℚ) < 2 ^ e := by positivity
  rcases le_or_gt e g.exp with h | h
  · refine .inl ⟨g.sig * 2 ^ (g.exp - e).toNat, ?_⟩
    have hexp : (2 : ℚ) ^ g.exp = 2 ^ (g.exp - e).toNat * 2 ^ e := by
      rw [← zpow_natCast, Int.toNat_of_nonneg (by omega), ← zpow_add₀ (by decide), Int.sub_add_cancel]
    rw [f64Value, hexp]
    push_cast
    ring
  · refine .inr ?_
    have hexp : (2 : ℚ) ^ g.exp ≤ 2 ^ e / 2 := by
      rw [div_eq_mul_inv, ← zpow_sub_one₀ two_ne_zero]
      exact zpow_le_zpow_right₀ one_le_two (by omega)
    have hsig : (g.sig : ℚ) ≤ 2 ^ 53 - 1 := by
      have : g.sig + 1 ≤ 2 ^ 53 := hg
      rw [le_sub_iff_add_le]
      exact_mod_cast this
    calc f64Value g ≤ (2 ^ 53 - 1) * (2 ^ e / 2) := by unfold f64Value; gcongr
      _ = (2 ^ 52 - 1 / 2) * 2 ^ e := by ring

/-- A number y of units, at least 2^52 and within half a unit of the whole number m: every other binary64 value is at
least half a unit away. -/
theorem half_unit_le_of_ne {y : ℝ} {m : Nat} {e : Int} (hlo : 2 ^ 52 ≤ y) (hm : |y - m| ≤ 1 / 2) {g : F64}
    (hg : g.sig < 2 ^ 53) (hne : f64Value g ≠ m * 2 ^ e) : 1 / 2 * 2 ^ e ≤ |y * 2 ^ e - (f64Value g : ℝ)| := by
  have hunit : (0 : ℝ) < 2 ^ e := by positivity
  rcases f64Value_whole_or_below hg e with ⟨k, hk⟩ | hbelow
  · rw [hk]
    push_cast
    rw [← sub_mul, abs_mul, abs_of_pos hunit]
    gcongr
    have hkm : k ≠ m := by
      rintro rfl
      exact hne hk
    have hone : (1 : ℝ) ≤ |(k : ℝ) - m| := by
      have : (1 : ℤ) ≤ |(k : ℤ) - m| := Int.one_le_abs (by omega)
      exact_mod_cast this
    have htri := abs_sub_le (k : ℝ) y m
    rw [abs_sub_comm (k : ℝ) y] at htri
    linarith
  · have hbelow' : (f64Value g : ℝ) ≤ (2 ^ 52 - 1 / 2) * 2 ^ e := by
      have h := (Rat.cast_le (K := ℝ)).2 hbelow
      push_cast at h
      exact h
    have hy := mul_le_mul_of_nonneg_right hlo hunit.le
    exact le_trans (by linarith) (le_abs_self _)

/-! #### Truncation -/

/-- `ftrunc` is the floor (R140). -/
theorem trunc_floor (f : F64) : (f.trunc : ℚ) ≤ f64Value f ∧ f64Value f < f.trunc + 1 := by
  obtain ⟨m, e⟩ := f
  obtain ⟨d, rfl | rfl⟩ := e.eq_nat_or_neg
  · have hval : f64Value ⟨m, d⟩ = ((F64.mk m d).trunc : ℚ) := by
      rw [trunc_of_nonneg, f64Value, zpow_natCast]
      push_cast
      rfl
    rw [hval]
    exact ⟨le_rfl, lt_add_one _⟩
  · have hval : f64Value ⟨m, -d⟩ = (m : ℚ) / (2 ^ d : Nat) := by
      rw [f64Value, zpow_neg, zpow_natCast, div_eq_mul_inv]
      push_cast
      rfl
    rw [trunc_of_nonpos, hval]
    refine ⟨Nat.cast_div_le, ?_⟩
    rw [div_lt_iff₀ (by positivity), mul_comm]
    exact_mod_cast Nat.lt_mul_div_succ m (Nat.two_pow_pos d)

/-- A value that is a natural truncates to it. -/
theorem trunc_of_f64Value_eq {f : F64} {n : Nat} (h : f64Value f = n) : f.trunc = n := by
  obtain ⟨hle, hlt⟩ := trunc_floor f
  rw [h] at hle hlt
  have hle' : f.trunc ≤ n := by exact_mod_cast hle
  have hlt' : n < f.trunc + 1 := by exact_mod_cast hlt
  omega

/-! #### The conversion -/

/-- A tie is rounded to an even significand. -/
theorem roundShift_even_of_tie {n e : Nat}
    (h : 2 * (roundShift n e * 2 ^ e) = 2 * n + 2 ^ e ∨ 2 * n = 2 * (roundShift n e * 2 ^ e) + 2 ^ e) :
    roundShift n e % 2 = 0 := by
  have hdiv := Nat.div_add_mod n (2 ^ e)
  have hlt : n % 2 ^ e < 2 ^ e := Nat.mod_lt _ (by positivity)
  rw [Nat.mul_comm] at hdiv
  simp only [roundShift] at h ⊢
  split at h
  · next hup =>
    rw [Nat.add_mul] at h
    rw [if_pos hup]
    omega
  · next hup =>
    rw [if_neg hup]
    omega

/-- A natural from 2^53 on is between 2^52 and 2^53 units of the conversion, and is rounded to at most 2^53 of them. -/
theorem conversion_unit {n : Nat} (hn : ¬n < 2 ^ 53) :
    2 ^ 52 * 2 ^ (ilog2 n - 52) ≤ n ∧ roundShift n (ilog2 n - 52) ≤ 2 ^ 53 := by
  have h0 : n ≠ 0 := by omega
  have hlog : 53 ≤ ilog2 n := (Nat.le_log2 h0).2 (by omega)
  have hle : 2 ^ ilog2 n ≤ n := Nat.log2_self_le h0
  have hlt : n < 2 ^ (ilog2 n + 1) := Nat.lt_log2_self
  obtain ⟨hround, -⟩ := roundShift_near n (ilog2 n - 52)
  have hsplit : 2 ^ ilog2 n = 2 ^ 52 * 2 ^ (ilog2 n - 52) := by rw [← pow_add]; congr 1; omega
  rw [pow_succ, hsplit] at hlt
  refine ⟨hsplit ▸ hle, ?_⟩
  have hunit : 0 < 2 ^ (ilog2 n - 52) := by positivity
  generalize 2 ^ (ilog2 n - 52) = E at *
  by_contra! hbig
  have := Nat.mul_le_mul_right E hbig
  rw [Nat.succ_mul] at this
  omega

/-- Half a unit is the most that a rounded natural is off, and it is off so much only in a tie. -/
theorem roundShift_half_unit (n e : Nat) :
    |(n : ℝ) / 2 ^ e - roundShift n e| ≤ 1 / 2 ∧
      (|(n : ℝ) / 2 ^ e - roundShift n e| = 1 / 2 → roundShift n e % 2 = 0) := by
  have hunit : (0 : ℝ) < 2 ^ e := by positivity
  obtain ⟨hle, hge⟩ := roundShift_near n e
  have hle' : (2 : ℝ) * (roundShift n e * 2 ^ e) ≤ 2 * n + 2 ^ e := by exact_mod_cast hle
  have hge' : (2 : ℝ) * n ≤ 2 * (roundShift n e * 2 ^ e) + 2 ^ e := by exact_mod_cast hge
  have hy : (n : ℝ) / 2 ^ e * 2 ^ e = n := div_mul_cancel₀ _ hunit.ne'
  have hn : (n : ℝ) = n / 2 ^ e * 2 ^ e := hy.symm
  constructor
  · rw [abs_le]
    constructor <;> refine le_of_mul_le_mul_right ?_ hunit <;> linarith
  · intro htie
    apply roundShift_even_of_tie
    rcases (abs_eq (by norm_num)).1 htie with h | h
    · right
      have : (2 : ℝ) * n = 2 * (roundShift n e * 2 ^ e) + 2 ^ e := by
        rw [hn, sub_eq_iff_eq_add.1 h]; ring
      exact_mod_cast this
    · left
      have : (2 : ℝ) * (roundShift n e * 2 ^ e) = 2 * n + 2 ^ e := by
        rw [hn, sub_eq_iff_eq_add.1 h]; ring
      exact_mod_cast this

/-! #### The square root -/

/-- The rounded root of a positive integer is less than half off: `m + 1/2` is never the root of an integer (R140). -/
theorem nearestSqrt_half_unit {x : Nat} (hx : 0 < x) : |Real.sqrt x - nearestSqrt x| < 1 / 2 := by
  have hle := Nat.sqrt_le x
  have hlt := Nat.sqrt_lt.1 (Nat.lt_succ_self (Nat.sqrt x))
  have hpos : 0 < Nat.sqrt x := Nat.sqrt_pos.2 hx
  have hbounds : nearestSqrt x * nearestSqrt x < x + nearestSqrt x ∧
      x ≤ nearestSqrt x * nearestSqrt x + nearestSqrt x ∧ 0 < nearestSqrt x := by
    unfold nearestSqrt
    generalize Nat.sqrt x = k at *
    split <;> refine ⟨?_, ?_, ?_⟩ <;> linarith
  obtain ⟨hlo, hhi, hm⟩ := hbounds
  generalize nearestSqrt x = m at *
  have hlo' : (m : ℝ) * m + 1 ≤ x + m := by exact_mod_cast hlo
  have hhi' : (x : ℝ) ≤ m * m + m := by exact_mod_cast hhi
  have hm' : (1 : ℝ) ≤ m := by exact_mod_cast hm
  rw [abs_sub_lt_iff, sub_lt_iff_lt_add', sub_lt_comm]
  constructor
  · rw [Real.sqrt_lt' (by linarith)]
    linarith
  · refine Real.lt_sqrt_of_sq_lt ?_
    linarith

/-- What `fsqrt` rounds: f is an integer x of 105 or 106 bits times the square of the result's unit (R140). -/
theorem sqrt_eq_ofRounded {f : F64} (h0 : f.sig ≠ 0) (hsig : f.sig < 2 ^ 53) :
    ∃ (x : Nat) (e : Int), 2 ^ 104 ≤ x ∧ x < 2 ^ 106 ∧ f64Value f = x * (2 ^ e) ^ 2 ∧
      f.sqrt = F64.ofRounded (nearestSqrt x) e := by
  have hlog : ilog2 f.sig < 53 := ilog2_lt_of_lt h0 hsig
  have hle : 2 ^ ilog2 f.sig ≤ f.sig := Nat.log2_self_le h0
  have hlt : f.sig < 2 ^ (ilog2 f.sig + 1) := Nat.lt_log2_self
  obtain ⟨e, he⟩ : ∃ e : Int, e = ((ilog2 f.sig : Int) + f.exp) / 2 - 52 := ⟨_, rfl⟩
  obtain ⟨k, hk⟩ : ∃ k : Nat, (f.exp - 2 * e).toNat = k := ⟨_, rfl⟩
  have hexp : f.exp = k + (e + e) := by omega
  have hlo : 2 ^ 104 ≤ f.sig * 2 ^ k :=
    calc 2 ^ 104 ≤ 2 ^ (ilog2 f.sig + k) := Nat.pow_le_pow_right (by decide) (by omega)
      _ = 2 ^ ilog2 f.sig * 2 ^ k := pow_add _ _ _
      _ ≤ f.sig * 2 ^ k := Nat.mul_le_mul_right _ hle
  have hhi : f.sig * 2 ^ k < 2 ^ 106 :=
    calc f.sig * 2 ^ k < 2 ^ (ilog2 f.sig + 1) * 2 ^ k := Nat.mul_lt_mul_of_pos_right hlt (Nat.two_pow_pos k)
      _ = 2 ^ (ilog2 f.sig + 1 + k) := (pow_add _ _ _).symm
      _ ≤ 2 ^ 106 := Nat.pow_le_pow_right (by decide) (by omega)
  refine ⟨f.sig * 2 ^ k, e, hlo, hhi, ?_, ?_⟩
  · rw [f64Value, hexp, zpow_add₀ (by decide), zpow_add₀ (by decide), zpow_natCast]
    push_cast
    ring
  · have hroot : floorRoot 53 (f.sig * 2 ^ k) 0 = Nat.sqrt (f.sig * 2 ^ k) :=
      floorRoot_eq_sqrt 53 (Nat.zero_le _) (by rw [Nat.zero_add, ← pow_add]; exact hhi)
    simp only [F64.sqrt, if_neg h0, ← he, hk, hroot, nearestSqrt]

theorem nearestSqrt_le {x : Nat} (hx : x < 2 ^ 106) : nearestSqrt x ≤ 2 ^ 53 := by
  have hroot : Nat.sqrt x < 2 ^ 53 := sqrt_lt_two_pow (w := 106) rfl hx
  unfold nearestSqrt
  split <;> omega

end Sys2Proof.Machine
end

section
/-! SETTLED. The binary64 operations of 42_fp.md R140, in the model's reading of IEEE 754 (log entry 12). -/

namespace Sys2Proof.Machine

open Sys2Proof.Claims

/-- The conversion is exact up to 2^53 (R140). -/
theorem f64Value_ofNat_of_le {n : Nat} (hn : n ≤ 2 ^ 53) : f64Value (F64.ofNat n) = n := by
  rcases hn.lt_or_eq with h | rfl
  · rw [F64.ofNat, if_pos h, f64Value, zpow_zero, mul_one]
  · have hconv : F64.ofNat (2 ^ 53) = ⟨2 ^ 52, 1⟩ := by decide +kernel
    rw [hconv, f64Value]
    norm_num

theorem sig_ofNat_lt (n : Nat) : (F64.ofNat n).sig < 2 ^ 53 := by
  unfold F64.ofNat
  split
  · next h => exact h
  · next h => exact sig_ofRounded_lt (conversion_unit h).2 _

/-- No other binary64 value is nearer to n than its conversion, and in a tie the conversion's significand is even
(R140). -/
theorem ofNat_nearest {n : Nat} {g : F64} (hg : g.sig < 2 ^ 53) (hne : f64Value g ≠ f64Value (F64.ofNat n)) :
    |(n : ℝ) - f64Value (F64.ofNat n)| ≤ |(n : ℝ) - f64Value g| ∧
      (|(n : ℝ) - f64Value (F64.ofNat n)| = |(n : ℝ) - f64Value g| → (F64.ofNat n).sig % 2 = 0) := by
  by_cases hsmall : n < 2 ^ 53
  · have hval := f64Value_ofNat_of_le hsmall.le
    rw [hval] at hne ⊢
    refine ⟨by simp, fun htie => absurd ?_ hne⟩
    have hzero : (n : ℝ) - f64Value g = 0 := by rw [← abs_eq_zero, ← htie]; simp
    exact_mod_cast (sub_eq_zero.1 hzero).symm
  · obtain ⟨hlo, -⟩ := conversion_unit hsmall
    have hconv : F64.ofNat n = F64.ofRounded (roundShift n (ilog2 n - 52)) (ilog2 n - 52 : Nat) := if_neg hsmall
    obtain ⟨hhalf, hties⟩ := roundShift_half_unit n (ilog2 n - 52)
    rw [hconv, f64Value_ofRounded] at hne ⊢
    generalize ilog2 n - 52 = e at *
    have hunit : (0 : ℝ) < 2 ^ e := by positivity
    have hy : (n : ℝ) = n / 2 ^ e * 2 ^ e := (div_mul_cancel₀ _ hunit.ne').symm
    have hlo' : (2 : ℝ) ^ 52 ≤ n / 2 ^ e := by
      rw [le_div_iff₀ hunit]
      exact_mod_cast hlo
    have hfar := half_unit_le_of_ne hlo' hhalf hg hne
    have hdist : |(n : ℝ) - ((roundShift n e * 2 ^ (e : ℤ) : ℚ) : ℝ)| = |(n : ℝ) / 2 ^ e - roundShift n e| * 2 ^ e := by
      push_cast
      rw [zpow_natCast, ← abs_of_pos hunit, ← abs_mul, abs_of_pos hunit, sub_mul, ← hy]
    rw [zpow_natCast, ← hy] at hfar
    rw [hdist]
    refine ⟨(mul_le_mul_of_nonneg_right hhalf hunit.le).trans hfar, fun htie => ?_⟩
    refine sig_ofRounded_even (hties (le_antisymm hhalf ?_)) _
    exact le_of_mul_le_mul_right (hfar.trans_eq htie.symm) hunit

/-- Settles O11: the conversion rounds to a whole number of units, at most half a unit away. -/
theorem conversionRoundsToNearest : Obligations.ConversionRoundsToNearest := by
  have hmax : f64Value (F64.ofNat (2 ^ 64 - 1)) = (2 ^ 64 : Nat) := by
    have hconv : F64.ofNat (2 ^ 64 - 1) = ⟨2 ^ 52, 12⟩ := by decide +kernel
    rw [hconv, f64Value]
    norm_num
  refine ⟨fun n hn => ⟨f64Value_ofNat_of_le hn, trunc_of_f64Value_eq (f64Value_ofNat_of_le hn)⟩,
    trunc_of_f64Value_eq hmax, by rw [hmax]; norm_num, fun n _ => ⟨sig_ofNat_lt n, fun g hg => ?_⟩⟩
  by_cases hne : f64Value g = f64Value (F64.ofNat n)
  · exact ⟨by rw [hne], fun _ h => absurd hne h⟩
  · obtain ⟨hle, htie⟩ := ofNat_nearest hg hne
    exact ⟨by exact_mod_cast hle, fun h _ => htie (by exact_mod_cast h)⟩

theorem sqrt_of_sig_eq_zero {f : F64} (h : f.sig = 0) : f.sqrt = ⟨0, 0⟩ := if_pos h

theorem f64Value_of_sig_eq_zero {f : F64} (h : f.sig = 0) : f64Value f = 0 := by
  rw [f64Value, h, Nat.cast_zero, zero_mul]

/-- R140: `fsqrt` of a positive value is strictly nearest to its real root. -/
theorem sqrt_nearest {f g : F64} (h0 : f.sig ≠ 0) (hsig : f.sig < 2 ^ 53) (hg : g.sig < 2 ^ 53)
    (hne : f64Value g ≠ f64Value f.sqrt) :
    |Real.sqrt (f64Value f) - f64Value f.sqrt| < |Real.sqrt (f64Value f) - f64Value g| := by
  obtain ⟨x, e, hlo, -, hval, hsqrt⟩ := sqrt_eq_ofRounded h0 hsig
  rw [hsqrt, f64Value_ofRounded] at hne ⊢
  have hunit : (0 : ℝ) < 2 ^ e := by positivity
  have hroot : Real.sqrt (f64Value f) = Real.sqrt x * 2 ^ e := by
    rw [hval]
    push_cast
    rw [Real.sqrt_mul (Nat.cast_nonneg x), Real.sqrt_sq hunit.le]
  have hlo' : (2 : ℝ) ^ 52 ≤ Real.sqrt x := by
    refine Real.le_sqrt_of_sq_le ?_
    rw [← pow_mul]
    exact_mod_cast hlo
  have hhalf := nearestSqrt_half_unit (lt_of_lt_of_le (by decide) hlo)
  have hfar := half_unit_le_of_ne hlo' hhalf.le hg hne
  rw [hroot]
  refine lt_of_lt_of_le ?_ hfar
  push_cast
  rw [← sub_mul, abs_mul, abs_of_pos hunit]
  exact mul_lt_mul_of_pos_right hhalf hunit

/-- Settles O59: the root rounds to a whole number of units, less than half a unit away; 0 is its own root. -/
theorem squareRootCorrectlyRounded : Obligations.SquareRootCorrectlyRounded := by
  refine ⟨fun f hsig => ?_, fun e => ?_, trunc_floor⟩
  · by_cases h0 : f.sig = 0
    · rw [sqrt_of_sig_eq_zero h0, f64Value_of_sig_eq_zero h0, f64Value_of_sig_eq_zero rfl]
      refine ⟨by decide, fun g _ hne => ?_⟩
      simpa using hne
    · obtain ⟨x, e, -, hhi, -, hsqrt⟩ := sqrt_eq_ofRounded h0 hsig
      refine ⟨?_, fun g hg hne => sqrt_nearest h0 hsig hg hne⟩
      rw [hsqrt]
      exact sig_ofRounded_lt (nearestSqrt_le hhi) e
  · exact f64Value_of_sig_eq_zero (f := F64.sqrt ⟨0, e⟩) rfl

end Sys2Proof.Machine
end
